-- ==== Sys2Proof/Word.lean ====
section
/-! DEFINITION. The word types of the CORE (spec 00_scope.md R7, R9): XLEN is 32, a byte is 8 bits, the two
counters are 64 bits wide. Arithmetic on words is modulo 2^32 (R9, R140): `BitVec` arithmetic. -/

namespace Sys2Proof

/-- A 32-bit word: a general, system or control register, an address, a fetched instruction word. -/
abbrev Word := BitVec 32

/-- One byte, the unit of memory (R60). -/
abbrev Byte := BitVec 8

/-- A halfword: a compressed instruction (R104). -/
abbrev Half := BitVec 16

/-- A 64-bit word: the counters of R39 and the products of R151. -/
abbrev DWord := BitVec 64

/-- The number of a general register, 0 to 31 (R20). -/
abbrev Reg := BitVec 5

/-- The number of a system register sr0 to sr31 or of a control register cr0 to cr31 (R31, R32). -/
abbrev SpecialIdx := BitVec 5

end Sys2Proof
end

