-- ==== Sys2Proof/Syntax.lean ====
section
/-! DEFINITION. The syntax of the instruction set: the sixteen conditions and one constructor of `Instr` per row
of spec/opcode_table.json, in the table's order. Operand fields carry the bits the encoding gives them (spec 30_encoding.md
R110 to R116); ignored bits are not part of an instruction (R137). Register numbers of the compressed forms have the
common type `Reg`; that they are below 16 (R23) is WellFormed's check. -/

namespace Sys2Proof

/-- The sixteen conditions, in the order of their codes 0 to 15 (40_alu_primitives.md R160, D10). -/
inductive Cond where
  /-- carry set (unsigned >=) -/
  | cs
  /-- carry clear (unsigned <) -/
  | cc
  /-- unsigned > -/
  | hi
  /-- unsigned <= -/
  | ls
  /-- equal -/
  | eq
  /-- not equal -/
  | ne
  /-- signed > -/
  | gt
  /-- signed <= -/
  | le
  /-- signed >= -/
  | ge
  /-- signed < -/
  | lt
  /-- minus -/
  | mi
  /-- plus -/
  | pl
  /-- overflow set -/
  | vs
  /-- overflow clear -/
  | vc
  /-- test bit set -/
  | t
  /-- always -/
  | al
deriving DecidableEq, Repr

/-- The instructions, one constructor per row of spec/opcode_table.json. `cu` is the CU bit (R110, R111). -/
inductive Instr where
  /-- nop: no operation (R171). -/
  | nop
  /-- syscall: system call, cause 1 (R172). -/
  | syscall
  /-- trap: software trap, cause 2 (R173). -/
  | trap
  /-- sdbbp: software debug breakpoint, cause 3 (R174). -/
  | sdbbp
  /-- br: jump to the address in rA (R175). -/
  | br (ra : Reg)
  /-- brl: jump to the address in rA and link pc + 4 into r3 (R175). -/
  | brl (ra : Reg)
  /-- rte: return from exception (R176). -/
  | rte
  /-- add: add (R177). -/
  | add (rd ra rb : Reg) (cu : Bool)
  /-- addc: add with carry (R178). -/
  | addc (rd ra rb : Reg) (cu : Bool)
  /-- sub: subtract (R179). -/
  | sub (rd ra rb : Reg) (cu : Bool)
  /-- subc: subtract with carry (borrow = !C) (R180). -/
  | subc (rd ra rb : Reg) (cu : Bool)
  /-- cmp: compare (R181). -/
  | cmp (ra rb : Reg)
  /-- neg: negate (R182). -/
  | neg (rd ra : Reg) (cu : Bool)
  /-- and: bitwise AND (R183). -/
  | and (rd ra rb : Reg) (cu : Bool)
  /-- or: bitwise OR (R184). -/
  | or (rd ra rb : Reg) (cu : Bool)
  /-- not: bitwise complement (R185). -/
  | not (rd ra : Reg) (cu : Bool)
  /-- xor: bitwise exclusive OR (R186). -/
  | xor (rd ra rb : Reg) (cu : Bool)
  /-- bitclr: clear bit k (R187). -/
  | bitclr (rd ra : Reg) (k : BitVec 5) (cu : Bool)
  /-- bitset: set bit k (R188). -/
  | bitset (rd ra : Reg) (k : BitVec 5) (cu : Bool)
  /-- bittst: test bit k (R189). -/
  | bittst (ra : Reg) (k : BitVec 5)
  /-- bittgl: toggle bit k (R190). -/
  | bittgl (rd ra : Reg) (k : BitVec 5) (cu : Bool)
  /-- sll: shift left logical (R191). -/
  | sll (rd ra rb : Reg) (cu : Bool)
  /-- srl: shift right logical (R192). -/
  | srl (rd ra rb : Reg) (cu : Bool)
  /-- sra: shift right arithmetic (R193). -/
  | sra (rd ra rb : Reg) (cu : Bool)
  /-- ror: rotate right (R194). -/
  | ror (rd ra rb : Reg) (cu : Bool)
  /-- rorc: rotate right through carry (R195). -/
  | rorc (rd ra rb : Reg) (cu : Bool)
  /-- rol: rotate left (R196). -/
  | rol (rd ra rb : Reg) (cu : Bool)
  /-- rolc: rotate left through carry (R197). -/
  | rolc (rd ra rb : Reg) (cu : Bool)
  /-- mul: signed multiply, 64-bit product (R198). -/
  | mul (ra rb : Reg)
  /-- mulu: unsigned multiply, 64-bit product (R199). -/
  | mulu (ra rb : Reg)
  /-- div: signed divide (R200). -/
  | div (ra rb : Reg)
  /-- divu: unsigned divide (R201). -/
  | divu (ra rb : Reg)
  /-- mfcel: move from CEL (R202). -/
  | mfcel (rd : Reg)
  /-- mfceh: move from CEH (R202). -/
  | mfceh (rd : Reg)
  /-- mfcehl: move from CEH (to rD) and CEL (to rA) (R202). -/
  | mfcehl (rd ra : Reg)
  /-- mtcel: move to CEL (R203). -/
  | mtcel (rd : Reg)
  /-- mtceh: move to CEH (R203). -/
  | mtceh (rd : Reg)
  /-- mtcehl: move to CEH (from rD) and CEL (from rA) (R203). -/
  | mtcehl (rd ra : Reg)
  /-- mfcr: move from control register n (R204). -/
  | mfcr (rd : Reg) (n : SpecialIdx)
  /-- mtcr: move to control register n (R205). -/
  | mtcr (rd : Reg) (n : SpecialIdx)
  /-- mfsr: move from system register n (R206). -/
  | mfsr (rd : Reg) (n : SpecialIdx)
  /-- mtsr: move to system register n (R207). -/
  | mtsr (rd : Reg) (n : SpecialIdx)
  /-- t_cond: `t{cond}`: set T from a condition (R208). -/
  | tCond (c : Cond)
  /-- mv_cond: `mv{cond}`: conditional move (R209). -/
  | mvCond (c : Cond) (rd ra : Reg)
  /-- extsb: sign-extend byte (R210). -/
  | extsb (rd ra : Reg) (cu : Bool)
  /-- extsh: sign-extend halfword (R211). -/
  | extsh (rd ra : Reg) (cu : Bool)
  /-- extzb: zero-extend byte (R212). -/
  | extzb (rd ra : Reg) (cu : Bool)
  /-- extzh: zero-extend halfword (R213). -/
  | extzh (rd ra : Reg) (cu : Bool)
  /-- lcb: load byte, zero-extended, from the address in rA (R214). -/
  | lcb (rd ra : Reg)
  /-- lcw: load word from the address in rA (R215). -/
  | lcw (rd ra : Reg)
  /-- scb: store byte to the address in rA (R216). -/
  | scb (rd ra : Reg)
  /-- scw: store word to the address in rA (R217). -/
  | scw (rd ra : Reg)
  /-- slli: shift left logical by immediate (R218). -/
  | slli (rd ra : Reg) (imm5 : BitVec 5) (cu : Bool)
  /-- srli: shift right logical by immediate (R219). -/
  | srli (rd ra : Reg) (imm5 : BitVec 5) (cu : Bool)
  /-- srai: shift right arithmetic by immediate (R220). -/
  | srai (rd ra : Reg) (imm5 : BitVec 5) (cu : Bool)
  /-- rori: rotate right by immediate (R221). -/
  | rori (rd ra : Reg) (imm5 : BitVec 5) (cu : Bool)
  /-- roric: rotate right through carry by immediate (R222). -/
  | roric (rd ra : Reg) (imm5 : BitVec 5) (cu : Bool)
  /-- roli: rotate left by immediate (R223). -/
  | roli (rd ra : Reg) (imm5 : BitVec 5) (cu : Bool)
  /-- rolic: rotate left through carry by immediate (R224). -/
  | rolic (rd ra : Reg) (imm5 : BitVec 5) (cu : Bool)
  /-- addi: add a sign-extended immediate (R231). -/
  | addi (rd : Reg) (imm16 : BitVec 16) (cu : Bool)
  /-- addis: add an upper immediate (R232). -/
  | addis (rd : Reg) (imm16 : BitVec 16) (cu : Bool)
  /-- cmpi: compare with a sign-extended immediate (R233). -/
  | cmpi (rd : Reg) (imm16 : BitVec 16)
  /-- cmpis: compare with an upper immediate (R234). -/
  | cmpis (rd : Reg) (imm16 : BitVec 16)
  /-- andi: AND with a zero-extended immediate (R235). -/
  | andi (rd : Reg) (imm16 : BitVec 16) (cu : Bool)
  /-- andis: AND with an upper immediate (R236). -/
  | andis (rd : Reg) (imm16 : BitVec 16) (cu : Bool)
  /-- ori: OR with a zero-extended immediate (R237). -/
  | ori (rd : Reg) (imm16 : BitVec 16) (cu : Bool)
  /-- oris: OR with an upper immediate (R238). -/
  | oris (rd : Reg) (imm16 : BitVec 16) (cu : Bool)
  /-- ldi: load a sign-extended immediate (R239). -/
  | ldi (rd : Reg) (imm16 : BitVec 16)
  /-- ldis: load an upper immediate (R240). -/
  | ldis (rd : Reg) (imm16 : BitVec 16)
  /-- j: unconditional jump (R250). -/
  | j (disp24 : BitVec 24)
  /-- jl: jump and link pc + 4 into r3 (R251). -/
  | jl (disp24 : BitVec 24)
  /-- b_cond: `b{cond}`: conditional branch (R252). -/
  | bCond (c : Cond) (disp22 : BitVec 22)
  /-- b_cond_l: `b{cond}l`: conditional branch and link (R253). -/
  | bCondL (c : Cond) (disp22 : BitVec 22)
  /-- lw.rix: load word, RIX base+offset (R264). -/
  | lwRix (rd ra : Reg) (imm12 : BitVec 12)
  /-- lh.rix: load halfword, signed, RIX base+offset (R265). -/
  | lhRix (rd ra : Reg) (imm12 : BitVec 12)
  /-- lhu.rix: load halfword, unsigned, RIX base+offset (R266). -/
  | lhuRix (rd ra : Reg) (imm12 : BitVec 12)
  /-- lb.rix: load byte, signed, RIX base+offset (R267). -/
  | lbRix (rd ra : Reg) (imm12 : BitVec 12)
  /-- sw.rix: store word, RIX base+offset (R268). -/
  | swRix (rd ra : Reg) (imm12 : BitVec 12)
  /-- sh.rix: store halfword, RIX base+offset (R269). -/
  | shRix (rd ra : Reg) (imm12 : BitVec 12)
  /-- lbu.rix: load byte, unsigned, RIX base+offset (R270). -/
  | lbuRix (rd ra : Reg) (imm12 : BitVec 12)
  /-- sb.rix: store byte, RIX base+offset (R271). -/
  | sbRix (rd ra : Reg) (imm12 : BitVec 12)
  /-- lw.pi: load word, RIX post-increment (R272). -/
  | lwPi (rd ra : Reg) (imm12 : BitVec 12)
  /-- lh.pi: load halfword, signed, RIX post-increment (R273). -/
  | lhPi (rd ra : Reg) (imm12 : BitVec 12)
  /-- lhu.pi: load halfword, unsigned, RIX post-increment (R274). -/
  | lhuPi (rd ra : Reg) (imm12 : BitVec 12)
  /-- lb.pi: load byte, signed, RIX post-increment (R275). -/
  | lbPi (rd ra : Reg) (imm12 : BitVec 12)
  /-- sw.pi: store word, RIX post-increment (R276). -/
  | swPi (rd ra : Reg) (imm12 : BitVec 12)
  /-- sh.pi: store halfword, RIX post-increment (R277). -/
  | shPi (rd ra : Reg) (imm12 : BitVec 12)
  /-- lbu.pi: load byte, unsigned, RIX post-increment (R278). -/
  | lbuPi (rd ra : Reg) (imm12 : BitVec 12)
  /-- sb.pi: store byte, RIX post-increment (R279). -/
  | sbPi (rd ra : Reg) (imm12 : BitVec 12)
  /-- lw: load word, Memory-Form (R280). -/
  | lw (rd ra : Reg) (imm15 : BitVec 15)
  /-- lh: load halfword, signed, Memory-Form (R281). -/
  | lh (rd ra : Reg) (imm15 : BitVec 15)
  /-- lhu: load halfword, unsigned, Memory-Form (R282). -/
  | lhu (rd ra : Reg) (imm15 : BitVec 15)
  /-- lb: load byte, signed, Memory-Form (R283). -/
  | lb (rd ra : Reg) (imm15 : BitVec 15)
  /-- sw: store word, Memory-Form (R284). -/
  | sw (rd ra : Reg) (imm15 : BitVec 15)
  /-- sh: store halfword, Memory-Form (R285). -/
  | sh (rd ra : Reg) (imm15 : BitVec 15)
  /-- lbu: load byte, unsigned, Memory-Form (R286). -/
  | lbu (rd ra : Reg) (imm15 : BitVec 15)
  /-- sb: store byte, Memory-Form (R287). -/
  | sb (rd ra : Reg) (imm15 : BitVec 15)
  /-- nop!: no operation, compressed (R291). -/
  | nopC
  /-- mv!: register move (R292). -/
  | mvC (rd ra : Reg)
  /-- br!: jump to the address in rA (R293). -/
  | brC (ra : Reg)
  /-- brl!: jump to the address in rA and link pc + 2 into r3 (R294). -/
  | brlC (ra : Reg)
  /-- break!: software breakpoint, cause 3 (R295). -/
  | breakC
  /-- addi!: add a small signed immediate (R296). -/
  | addiC (rd : Reg) (imm5 : BitVec 5)
  /-- cmpi!: compare with a small signed immediate (R297). -/
  | cmpiC (rd : Reg) (imm5 : BitVec 5)
  /-- andi!: AND with a small unsigned immediate (R298). -/
  | andiC (rd : Reg) (imm5 : BitVec 5)
  /-- ori!: OR with a small unsigned immediate (R299). -/
  | oriC (rd : Reg) (imm5 : BitVec 5)
  /-- ldi!: load a small signed immediate (R300). -/
  | ldiC (rd : Reg) (imm5 : BitVec 5)
  /-- lw!: load word, register-indirect (R301). -/
  | lwC (rd ra : Reg)
  /-- lh!: load halfword, signed, register-indirect (R302). -/
  | lhC (rd ra : Reg)
  /-- lhu!: load halfword, unsigned, register-indirect (R303). -/
  | lhuC (rd ra : Reg)
  /-- lb!: load byte, signed, register-indirect (R304). -/
  | lbC (rd ra : Reg)
  /-- sw!: store word, register-indirect (R305). -/
  | swC (rd ra : Reg)
  /-- sh!: store halfword, register-indirect (R306). -/
  | shC (rd ra : Reg)
  /-- lbu!: load byte, unsigned, register-indirect (R307). -/
  | lbuC (rd ra : Reg)
  /-- sb!: store byte, register-indirect (R308). -/
  | sbC (rd ra : Reg)
  /-- pop!: pop a word (R309). -/
  | popC (rd ra : Reg)
  /-- push!: push a word (R310). -/
  | pushC (rd ra : Reg)
  /-- b_cond_2: `b{cond}!`: compact conditional branch (R311). -/
  | bCondC (c : Cond) (disp8 : BitVec 8)
  /-- slli!: shift left logical by immediate (R312). -/
  | slliC (rd : Reg) (imm5 : BitVec 5)
  /-- srli!: shift right logical by immediate (R313). -/
  | srliC (rd : Reg) (imm5 : BitVec 5)
  /-- srai!: shift right arithmetic by immediate (R314). -/
  | sraiC (rd : Reg) (imm5 : BitVec 5)
  /-- rori!: rotate right by immediate (R315). -/
  | roriC (rd : Reg) (imm5 : BitVec 5)
  /-- roli!: rotate left by immediate (R316). -/
  | roliC (rd : Reg) (imm5 : BitVec 5)
  /-- extsb!: sign-extend byte (R317). -/
  | extsbC (rd ra : Reg)
  /-- extsh!: sign-extend halfword (R318). -/
  | extshC (rd ra : Reg)
  /-- extzb!: zero-extend byte (R319). -/
  | extzbC (rd ra : Reg)
  /-- extzh!: zero-extend halfword (R320). -/
  | extzhC (rd ra : Reg)
  /-- lwp!: load word, SP-relative (R321). -/
  | lwpC (rd : Reg) (imm7 : BitVec 7)
  /-- swp!: store word, SP-relative (R322). -/
  | swpC (rd : Reg) (imm7 : BitVec 7)
deriving DecidableEq, Repr

end Sys2Proof
end

