-- ==== Sys2Proof/WellFormed.lean ====
section
/-! DEFINITION. Well-formedness of instructions: the operand ranges that the types of `Instr` do not already say.
The 32-bit forms reach r0 to r31 with 5-bit fields, so every such term is well formed; the compressed forms name
registers with 4-bit fields and reach r0 to r15 only (10_state.md R23). -/

namespace Sys2Proof

/-- A register that a compressed form can name: r0 to r15 (R23). -/
def lowReg (r : Reg) : Bool := decide (r.toNat < 16)

/-- Every operand is one the instruction's encoding can hold. -/
def Instr.wellFormed : Instr → Bool
  | .nop => true
  | .syscall => true
  | .trap => true
  | .sdbbp => true
  | .br _ => true
  | .brl _ => true
  | .rte => true
  | .add _ _ _ _ => true
  | .addc _ _ _ _ => true
  | .sub _ _ _ _ => true
  | .subc _ _ _ _ => true
  | .cmp _ _ => true
  | .neg _ _ _ => true
  | .and _ _ _ _ => true
  | .or _ _ _ _ => true
  | .not _ _ _ => true
  | .xor _ _ _ _ => true
  | .bitclr _ _ _ _ => true
  | .bitset _ _ _ _ => true
  | .bittst _ _ => true
  | .bittgl _ _ _ _ => true
  | .sll _ _ _ _ => true
  | .srl _ _ _ _ => true
  | .sra _ _ _ _ => true
  | .ror _ _ _ _ => true
  | .rorc _ _ _ _ => true
  | .rol _ _ _ _ => true
  | .rolc _ _ _ _ => true
  | .mul _ _ => true
  | .mulu _ _ => true
  | .div _ _ => true
  | .divu _ _ => true
  | .mfcel _ => true
  | .mfceh _ => true
  | .mfcehl _ _ => true
  | .mtcel _ => true
  | .mtceh _ => true
  | .mtcehl _ _ => true
  | .mfcr _ _ => true
  | .mtcr _ _ => true
  | .mfsr _ _ => true
  | .mtsr _ _ => true
  | .tCond _ => true
  | .mvCond _ _ _ => true
  | .extsb _ _ _ => true
  | .extsh _ _ _ => true
  | .extzb _ _ _ => true
  | .extzh _ _ _ => true
  | .lcb _ _ => true
  | .lcw _ _ => true
  | .scb _ _ => true
  | .scw _ _ => true
  | .slli _ _ _ _ => true
  | .srli _ _ _ _ => true
  | .srai _ _ _ _ => true
  | .rori _ _ _ _ => true
  | .roric _ _ _ _ => true
  | .roli _ _ _ _ => true
  | .rolic _ _ _ _ => true
  | .addi _ _ _ => true
  | .addis _ _ _ => true
  | .cmpi _ _ => true
  | .cmpis _ _ => true
  | .andi _ _ _ => true
  | .andis _ _ _ => true
  | .ori _ _ _ => true
  | .oris _ _ _ => true
  | .ldi _ _ => true
  | .ldis _ _ => true
  | .j _ => true
  | .jl _ => true
  | .bCond _ _ => true
  | .bCondL _ _ => true
  | .lwRix _ _ _ => true
  | .lhRix _ _ _ => true
  | .lhuRix _ _ _ => true
  | .lbRix _ _ _ => true
  | .swRix _ _ _ => true
  | .shRix _ _ _ => true
  | .lbuRix _ _ _ => true
  | .sbRix _ _ _ => true
  | .lwPi _ _ _ => true
  | .lhPi _ _ _ => true
  | .lhuPi _ _ _ => true
  | .lbPi _ _ _ => true
  | .swPi _ _ _ => true
  | .shPi _ _ _ => true
  | .lbuPi _ _ _ => true
  | .sbPi _ _ _ => true
  | .lw _ _ _ => true
  | .lh _ _ _ => true
  | .lhu _ _ _ => true
  | .lb _ _ _ => true
  | .sw _ _ _ => true
  | .sh _ _ _ => true
  | .lbu _ _ _ => true
  | .sb _ _ _ => true
  | .nopC => true
  | .mvC rd ra => lowReg rd && lowReg ra
  | .brC ra => lowReg ra
  | .brlC ra => lowReg ra
  | .breakC => true
  | .addiC rd _ => lowReg rd
  | .cmpiC rd _ => lowReg rd
  | .andiC rd _ => lowReg rd
  | .oriC rd _ => lowReg rd
  | .ldiC rd _ => lowReg rd
  | .lwC rd ra => lowReg rd && lowReg ra
  | .lhC rd ra => lowReg rd && lowReg ra
  | .lhuC rd ra => lowReg rd && lowReg ra
  | .lbC rd ra => lowReg rd && lowReg ra
  | .swC rd ra => lowReg rd && lowReg ra
  | .shC rd ra => lowReg rd && lowReg ra
  | .lbuC rd ra => lowReg rd && lowReg ra
  | .sbC rd ra => lowReg rd && lowReg ra
  | .popC rd ra => lowReg rd && lowReg ra
  | .pushC rd ra => lowReg rd && lowReg ra
  | .bCondC _ _ => true
  | .slliC rd _ => lowReg rd
  | .srliC rd _ => lowReg rd
  | .sraiC rd _ => lowReg rd
  | .roriC rd _ => lowReg rd
  | .roliC rd _ => lowReg rd
  | .extsbC rd ra => lowReg rd && lowReg ra
  | .extshC rd ra => lowReg rd && lowReg ra
  | .extzbC rd ra => lowReg rd && lowReg ra
  | .extzhC rd ra => lowReg rd && lowReg ra
  | .lwpC rd _ => lowReg rd
  | .swpC rd _ => lowReg rd

end Sys2Proof
end

