-- ==== Sys2Proof/Decode.lean ====
section
/-! DEFINITION. The decoder, total on every word and on every list of bytes, rejecting by name (spec 30_encoding.md
R102 to R107, R110 to R116, R130 to R133, R136), and after it the encoder, written from the same encoding tables.
The bit-field helpers both use stand first. -/

namespace Sys2Proof

/-! ## Bit fields -/

/-- `w[lo+n-1 : lo]`, the n-bit field whose least significant bit is bit `lo` (R9). -/
def field {m : Nat} (w : BitVec m) (lo n : Nat) : BitVec n := w.extractLsb' lo n

/-- An m-bit word that holds the field `f` from bit `lo` up and 0 elsewhere. -/
def place (m lo : Nat) {n : Nat} (f : BitVec n) : BitVec m := f.setWidth m <<< lo

/-- The little-endian word of four bytes, the first at the lowest address (R66, R71). -/
def wordOfBytes (b0 b1 b2 b3 : Byte) : Word :=
  place 32 0 b0 ||| place 32 8 b1 ||| place 32 16 b2 ||| place 32 24 b3

/-- The condition of a 4-bit code (R160). -/
def Cond.ofCode (c : BitVec 4) : Cond :=
  match c with
  | 0#4 => .cs
  | 1#4 => .cc
  | 2#4 => .hi
  | 3#4 => .ls
  | 4#4 => .eq
  | 5#4 => .ne
  | 6#4 => .gt
  | 7#4 => .le
  | 8#4 => .ge
  | 9#4 => .lt
  | 10#4 => .mi
  | 11#4 => .pl
  | 12#4 => .vs
  | 13#4 => .vc
  | 14#4 => .t
  | _ => .al

/-- The 4-bit code of a condition (R160). -/
def Cond.code : Cond → BitVec 4
  | .cs => 0#4
  | .cc => 1#4
  | .hi => 2#4
  | .ls => 3#4
  | .eq => 4#4
  | .ne => 5#4
  | .gt => 6#4
  | .le => 7#4
  | .ge => 8#4
  | .lt => 9#4
  | .mi => 10#4
  | .pl => 11#4
  | .vs => 12#4
  | .vc => 13#4
  | .t => 14#4
  | .al => 15#4

/-! ## Rejections -/

/-- The names under which the decoder rejects a word (R136). Executing such a word is a StepFault (R350), a next
state of the machine; it is never a stop of the model. -/
inductive Reserved where
  /-- primary opcode 0x06 (R103) -/
  | primaryOpcode
  /-- an SP-Form func6 that no row of R130 lists (R225) -/
  | spFunc6 (func6 : BitVec 6)
  /-- the `mfce`/`mtce` selector 00 (R202, R203) -/
  | ceSelector
  /-- I-Form func3 001, 011 or 111 (R241) -/
  | iFunc3 (func3 : BitVec 3)
  /-- a compressed halfword with h[14] = 0: it selects no table (R105, R323) -/
  | compressedNibble (nibble : BitVec 4)
  /-- compressed table 0x5 (R323) -/
  | compressedTable5
  /-- a reserved code of compressed table 0x4, 0x6, 0x7, 0xD or 0xE (R323) -/
  | compressedCode (table : BitVec 4) (code : BitVec 4)
  /-- fewer than the four bytes a fetch reads (R101); `step` always gives the decoder four -/
  | shortOfBytes
deriving DecidableEq, Repr

/-- What the decoder answers. -/
abbrev Decoded := Except Reserved Instr

/-! ## The 32-bit forms -/

/-- SP-Form (R110, R125, R130). -/
def decodeSp (w : Word) : Decoded :=
  let rd : Reg := field w 20 5
  let ra : Reg := field w 15 5
  let rb : Reg := field w 10 5
  let imm : BitVec 5 := field w 10 5
  let c : Cond := Cond.ofCode (field w 10 4)
  let sel : BitVec 2 := field w 10 2
  let cu : Bool := w.getLsbD 0
  match field w 1 6 with
  | 0x00#6 => .ok .nop
  | 0x01#6 => .ok .syscall
  | 0x02#6 => .ok .trap
  | 0x03#6 => .ok .sdbbp
  | 0x04#6 => if cu then .ok (.brl ra) else .ok (.br ra)
  | 0x06#6 => .ok .rte
  | 0x08#6 => .ok (.add rd ra rb cu)
  | 0x09#6 => .ok (.addc rd ra rb cu)
  | 0x0A#6 => .ok (.sub rd ra rb cu)
  | 0x0B#6 => .ok (.subc rd ra rb cu)
  | 0x0C#6 => .ok (.cmp ra rb)
  | 0x0F#6 => .ok (.neg rd ra cu)
  | 0x10#6 => .ok (.and rd ra rb cu)
  | 0x11#6 => .ok (.or rd ra rb cu)
  | 0x12#6 => .ok (.not rd ra cu)
  | 0x13#6 => .ok (.xor rd ra rb cu)
  | 0x14#6 => .ok (.bitclr rd ra imm cu)
  | 0x15#6 => .ok (.bitset rd ra imm cu)
  | 0x16#6 => .ok (.bittst ra imm)
  | 0x17#6 => .ok (.bittgl rd ra imm cu)
  | 0x18#6 => .ok (.sll rd ra rb cu)
  | 0x1A#6 => .ok (.srl rd ra rb cu)
  | 0x1B#6 => .ok (.sra rd ra rb cu)
  | 0x1C#6 => .ok (.ror rd ra rb cu)
  | 0x1D#6 => .ok (.rorc rd ra rb cu)
  | 0x1E#6 => .ok (.rol rd ra rb cu)
  | 0x1F#6 => .ok (.rolc rd ra rb cu)
  | 0x20#6 => .ok (.mul ra rb)
  | 0x21#6 => .ok (.mulu ra rb)
  | 0x22#6 => .ok (.div ra rb)
  | 0x23#6 => .ok (.divu ra rb)
  | 0x24#6 =>
    match sel with
    | 1#2 => .ok (.mfcel rd)
    | 2#2 => .ok (.mfceh rd)
    | 3#2 => .ok (.mfcehl rd ra)
    | _ => .error .ceSelector
  | 0x25#6 =>
    match sel with
    | 1#2 => .ok (.mtcel rd)
    | 2#2 => .ok (.mtceh rd)
    | 3#2 => .ok (.mtcehl rd ra)
    | _ => .error .ceSelector
  | 0x26#6 => .ok (.mfcr rd imm)
  | 0x27#6 => .ok (.mtcr rd imm)
  | 0x28#6 => .ok (.mfsr rd imm)
  | 0x29#6 => .ok (.mtsr rd imm)
  | 0x2A#6 => .ok (.tCond c)
  | 0x2B#6 => .ok (.mvCond c rd ra)
  | 0x2C#6 => .ok (.extsb rd ra cu)
  | 0x2D#6 => .ok (.extsh rd ra cu)
  | 0x2E#6 => .ok (.extzb rd ra cu)
  | 0x2F#6 => .ok (.extzh rd ra cu)
  | 0x30#6 => .ok (.lcb rd ra)
  | 0x31#6 => .ok (.lcw rd ra)
  | 0x34#6 => .ok (.scb rd ra)
  | 0x35#6 => .ok (.scw rd ra)
  | 0x38#6 => .ok (.slli rd ra imm cu)
  | 0x3A#6 => .ok (.srli rd ra imm cu)
  | 0x3B#6 => .ok (.srai rd ra imm cu)
  | 0x3C#6 => .ok (.rori rd ra imm cu)
  | 0x3D#6 => .ok (.roric rd ra imm cu)
  | 0x3E#6 => .ok (.roli rd ra imm cu)
  | 0x3F#6 => .ok (.rolic rd ra imm cu)
  | f => .error (.spFunc6 f)

/-- I-Form: ONE decoder for the opcode pair 0x01 (low immediate) and 0x05 (upper immediate) (R111, R131, R230). -/
def decodeI (upper : Bool) (w : Word) : Decoded :=
  let rd : Reg := field w 20 5
  let imm : BitVec 16 := field w 1 16
  let cu : Bool := w.getLsbD 0
  match field w 17 3 with
  | 0#3 => .ok (if upper then .addis rd imm cu else .addi rd imm cu)
  | 2#3 => .ok (if upper then .cmpis rd imm else .cmpi rd imm)
  | 4#3 => .ok (if upper then .andis rd imm cu else .andi rd imm cu)
  | 5#3 => .ok (if upper then .oris rd imm cu else .ori rd imm cu)
  | 6#3 => .ok (if upper then .ldis rd imm else .ldi rd imm)
  | f => .error (.iFunc3 f)

/-- J-Form (R112). -/
def decodeJ (w : Word) : Decoded :=
  let disp : BitVec 24 := field w 1 24
  if w.getLsbD 0 then .ok (.jl disp) else .ok (.j disp)

/-- B-Form: the 22-bit displacement is the fields w[26:13] and w[8:1] (R113, R122). -/
def decodeB (w : Word) : Decoded :=
  let c : Cond := Cond.ofCode (field w 9 4)
  let disp : BitVec 22 := place 22 8 (field w 13 14) ||| place 22 0 (field w 1 8)
  if w.getLsbD 0 then .ok (.bCondL c disp) else .ok (.bCond c disp)

/-- RIX-Form: ONE decoder for the opcode pair 0x03 (base+offset) and 0x07 (post-increment) (R114, R132). -/
def decodeRix (post : Bool) (w : Word) : Decoded :=
  let rd : Reg := field w 20 5
  let ra : Reg := field w 15 5
  let imm : BitVec 12 := field w 3 12
  match field w 0 3 with
  | 0#3 => .ok (if post then .lwPi rd ra imm else .lwRix rd ra imm)
  | 1#3 => .ok (if post then .lhPi rd ra imm else .lhRix rd ra imm)
  | 2#3 => .ok (if post then .lhuPi rd ra imm else .lhuRix rd ra imm)
  | 3#3 => .ok (if post then .lbPi rd ra imm else .lbRix rd ra imm)
  | 4#3 => .ok (if post then .swPi rd ra imm else .swRix rd ra imm)
  | 5#3 => .ok (if post then .shPi rd ra imm else .shRix rd ra imm)
  | 6#3 => .ok (if post then .lbuPi rd ra imm else .lbuRix rd ra imm)
  | _ => .ok (if post then .sbPi rd ra imm else .sbRix rd ra imm)

/-- Memory-Form: the operation is op[2:0] = w[29:27] (R115, R132). -/
def decodeMem (w : Word) : Decoded :=
  let rd : Reg := field w 20 5
  let ra : Reg := field w 15 5
  let imm : BitVec 15 := field w 0 15
  match field w 27 3 with
  | 0#3 => .ok (.lw rd ra imm)
  | 1#3 => .ok (.lh rd ra imm)
  | 2#3 => .ok (.lhu rd ra imm)
  | 3#3 => .ok (.lb rd ra imm)
  | 4#3 => .ok (.sw rd ra imm)
  | 5#3 => .ok (.sh rd ra imm)
  | 6#3 => .ok (.lbu rd ra imm)
  | _ => .ok (.sb rd ra imm)

/-! ## The compressed forms -/

/-- A 4-bit register field names r0 to r15 (R23, R116). -/
def lowRegOf (f : BitVec 4) : Reg := f.setWidth 5

/-- A compressed halfword: the table is the nibble h[15:12] (R105, R116, R133, R323). -/
def decodeCompressed (h : Half) : Decoded :=
  let rd : Reg := lowRegOf (field h 8 4)
  let ra : Reg := lowRegOf (field h 4 4)
  let func4 : BitVec 4 := field h 0 4
  let func3 : BitVec 3 := field h 5 3
  let imm5 : BitVec 5 := field h 0 5
  match field h 12 4 with
  | 0x4#4 =>
    match func4 with
    | 0#4 => .ok .nopC
    | 1#4 => .ok (.mvC rd ra)
    | 2#4 => .ok (.brC ra)
    | 3#4 => .ok (.brlC ra)
    | 4#4 => .ok .breakC
    | f => .error (.compressedCode 0x4#4 f)
  | 0x5#4 => .error .compressedTable5
  | 0x6#4 =>
    match func3 with
    | 0#3 => .ok (.addiC rd imm5)
    | 1#3 => .ok (.cmpiC rd imm5)
    | 2#3 => .ok (.andiC rd imm5)
    | 3#3 => .ok (.oriC rd imm5)
    | 4#3 => .ok (.ldiC rd imm5)
    | f => .error (.compressedCode 0x6#4 (f.setWidth 4))
  | 0x7#4 =>
    match func4 with
    | 0#4 => .ok (.lwC rd ra)
    | 1#4 => .ok (.lhC rd ra)
    | 2#4 => .ok (.lhuC rd ra)
    | 3#4 => .ok (.lbC rd ra)
    | 4#4 => .ok (.swC rd ra)
    | 5#4 => .ok (.shC rd ra)
    | 6#4 => .ok (.lbuC rd ra)
    | 7#4 => .ok (.sbC rd ra)
    | 8#4 => .ok (.popC rd ra)
    | 9#4 => .ok (.pushC rd ra)
    | f => .error (.compressedCode 0x7#4 f)
  | 0xC#4 => .ok (.bCondC (Cond.ofCode (field h 8 4)) (field h 0 8))
  | 0xD#4 =>
    match func3 with
    | 0#3 => .ok (.slliC rd imm5)
    | 1#3 => .ok (.srliC rd imm5)
    | 2#3 => .ok (.sraiC rd imm5)
    | 3#3 => .ok (.roriC rd imm5)
    | 4#3 => .ok (.roliC rd imm5)
    | f => .error (.compressedCode 0xD#4 (f.setWidth 4))
  | 0xE#4 =>
    match func4 with
    | 0#4 => .ok (.extsbC rd ra)
    | 1#4 => .ok (.extshC rd ra)
    | 2#4 => .ok (.extzbC rd ra)
    | 3#4 => .ok (.extzhC rd ra)
    | f => .error (.compressedCode 0xE#4 f)
  | 0xF#4 => .ok (if h.getLsbD 7 then .swpC rd (field h 0 7) else .lwpC rd (field h 0 7))
  | n => .error (.compressedNibble n)

/-! ## Primary dispatch -/

/-- The decoder of a fetched 32-bit word: the primary opcode w[31:27] selects the form (R102). The instruction is
compressed, and is the low halfword, exactly when bit 3 of the opcode, w[30], is 1 (R104, R138). -/
def decode (w : Word) : Decoded :=
  let op : BitVec 5 := field w 27 5
  if op.getLsbD 3 then decodeCompressed (field w 0 16)
  else
    match op with
    | 0x00#5 => decodeSp w
    | 0x01#5 => decodeI false w
    | 0x02#5 => decodeJ w
    | 0x03#5 => decodeRix false w
    | 0x04#5 => decodeB w
    | 0x05#5 => decodeI true w
    | 0x06#5 => .error .primaryOpcode
    | 0x07#5 => decodeRix true w
    | _ => decodeMem w

/-- The decoder over bytes as memory holds them, the first at the lowest address: a fetch reads four (R101), whatever
the length of the instruction they hold. -/
def decodeBytes : List Byte → Decoded
  | b0 :: b1 :: b2 :: b3 :: _ => decode (wordOfBytes b0 b1 b2 b3)
  | _ => .error .shortOfBytes

/-! ## The encoder -/

/-- The code of an instruction: a 32-bit word, or a compressed halfword (R138). -/
inductive Code where
  /-- a 32-bit instruction -/
  | full (w : Word)
  /-- a 16-bit compressed instruction -/
  | short (h : Half)
deriving DecidableEq, Repr

/-- The length of an instruction's code in bytes (R138). -/
def Code.size : Code → Nat
  | .full _ => 4
  | .short _ => 2

/-- The word that a fetch at the code's address reads. Of a compressed instruction it holds the halfword `next` that
follows it, and bit 14 of `next` must be 1 for the instruction to be decoded as compressed (R104). -/
def Code.fetched (next : Half) : Code → Word
  | .full w => w
  | .short h => place 32 16 next ||| place 32 0 h

/-- The SP-Form word (R110); bits that R110 marks ignored are 0. -/
def spWord (func6 : BitVec 6) (rd ra rb : BitVec 5) (cu : Bool) : Word :=
  place 32 27 0x00#5 ||| place 32 20 rd ||| place 32 15 ra ||| place 32 10 rb ||| place 32 1 func6
    ||| place 32 0 (BitVec.ofBool cu)

/-- The I-Form word (R111). -/
def iWord (op : BitVec 5) (func3 : BitVec 3) (rd : Reg) (imm : BitVec 16) (cu : Bool) : Word :=
  place 32 27 op ||| place 32 20 rd ||| place 32 17 func3 ||| place 32 1 imm ||| place 32 0 (BitVec.ofBool cu)

/-- The J-Form word (R112). -/
def jWord (disp : BitVec 24) (lk : Bool) : Word :=
  place 32 27 0x02#5 ||| place 32 1 disp ||| place 32 0 (BitVec.ofBool lk)

/-- The B-Form word (R113): disp[21:8] at 26:13, cond at 12:9, disp[7:0] at 8:1. -/
def bWord (c : Cond) (disp : BitVec 22) (lk : Bool) : Word :=
  place 32 27 0x04#5 ||| place 32 13 (field disp 8 14) ||| place 32 9 c.code ||| place 32 1 (field disp 0 8)
    ||| place 32 0 (BitVec.ofBool lk)

/-- The RIX-Form word (R114). -/
def rixWord (op : BitVec 5) (func3 : BitVec 3) (rd ra : Reg) (imm : BitVec 12) : Word :=
  place 32 27 op ||| place 32 20 rd ||| place 32 15 ra ||| place 32 3 imm ||| place 32 0 func3

/-- The Memory-Form word (R115). -/
def memWord (func3 : BitVec 3) (rd ra : Reg) (imm : BitVec 15) : Word :=
  place 32 30 2#2 ||| place 32 27 func3 ||| place 32 20 rd ||| place 32 15 ra ||| place 32 0 imm

/-- The C-RR halfword (R116); the registers are below 16 by WellFormed. -/
def crrHalf (table : BitVec 4) (func4 : BitVec 4) (rd ra : Reg) : Half :=
  place 16 12 table ||| place 16 8 (field rd 0 4) ||| place 16 4 (field ra 0 4) ||| place 16 0 func4

/-- The C-RI halfword (R116). -/
def criHalf (table : BitVec 4) (func3 : BitVec 3) (rd : Reg) (imm : BitVec 5) : Half :=
  place 16 12 table ||| place 16 8 (field rd 0 4) ||| place 16 5 func3 ||| place 16 0 imm

/-- The C-B halfword (R116). -/
def cbHalf (c : Cond) (disp : BitVec 8) : Half :=
  place 16 12 0xC#4 ||| place 16 8 c.code ||| place 16 0 disp

/-- The C-SP halfword (R116). -/
def cspHalf (s : Bool) (rd : Reg) (imm : BitVec 7) : Half :=
  place 16 12 0xF#4 ||| place 16 8 (field rd 0 4) ||| place 16 7 (BitVec.ofBool s) ||| place 16 0 imm

/-- The code of a well-formed instruction. -/
def encode : Instr → Code
  | .nop => .full (spWord 0x00#6 0#5 0#5 0#5 false)
  | .syscall => .full (spWord 0x01#6 0#5 0#5 0#5 false)
  | .trap => .full (spWord 0x02#6 0#5 0#5 0#5 false)
  | .sdbbp => .full (spWord 0x03#6 0#5 0#5 0#5 false)
  | .br ra => .full (spWord 0x04#6 0#5 ra 0#5 false)
  | .brl ra => .full (spWord 0x04#6 0#5 ra 0#5 true)
  | .rte => .full (spWord 0x06#6 0#5 0#5 0#5 false)
  | .add rd ra rb cu => .full (spWord 0x08#6 rd ra rb cu)
  | .addc rd ra rb cu => .full (spWord 0x09#6 rd ra rb cu)
  | .sub rd ra rb cu => .full (spWord 0x0A#6 rd ra rb cu)
  | .subc rd ra rb cu => .full (spWord 0x0B#6 rd ra rb cu)
  | .cmp ra rb => .full (spWord 0x0C#6 0#5 ra rb false)
  | .neg rd ra cu => .full (spWord 0x0F#6 rd ra 0#5 cu)
  | .and rd ra rb cu => .full (spWord 0x10#6 rd ra rb cu)
  | .or rd ra rb cu => .full (spWord 0x11#6 rd ra rb cu)
  | .not rd ra cu => .full (spWord 0x12#6 rd ra 0#5 cu)
  | .xor rd ra rb cu => .full (spWord 0x13#6 rd ra rb cu)
  | .bitclr rd ra k cu => .full (spWord 0x14#6 rd ra k cu)
  | .bitset rd ra k cu => .full (spWord 0x15#6 rd ra k cu)
  | .bittst ra k => .full (spWord 0x16#6 0#5 ra k false)
  | .bittgl rd ra k cu => .full (spWord 0x17#6 rd ra k cu)
  | .sll rd ra rb cu => .full (spWord 0x18#6 rd ra rb cu)
  | .srl rd ra rb cu => .full (spWord 0x1A#6 rd ra rb cu)
  | .sra rd ra rb cu => .full (spWord 0x1B#6 rd ra rb cu)
  | .ror rd ra rb cu => .full (spWord 0x1C#6 rd ra rb cu)
  | .rorc rd ra rb cu => .full (spWord 0x1D#6 rd ra rb cu)
  | .rol rd ra rb cu => .full (spWord 0x1E#6 rd ra rb cu)
  | .rolc rd ra rb cu => .full (spWord 0x1F#6 rd ra rb cu)
  | .mul ra rb => .full (spWord 0x20#6 0#5 ra rb false)
  | .mulu ra rb => .full (spWord 0x21#6 0#5 ra rb false)
  | .div ra rb => .full (spWord 0x22#6 0#5 ra rb false)
  | .divu ra rb => .full (spWord 0x23#6 0#5 ra rb false)
  | .mfcel rd => .full (spWord 0x24#6 rd 0#5 1#5 false)
  | .mfceh rd => .full (spWord 0x24#6 rd 0#5 2#5 false)
  | .mfcehl rd ra => .full (spWord 0x24#6 rd ra 3#5 false)
  | .mtcel rd => .full (spWord 0x25#6 rd 0#5 1#5 false)
  | .mtceh rd => .full (spWord 0x25#6 rd 0#5 2#5 false)
  | .mtcehl rd ra => .full (spWord 0x25#6 rd ra 3#5 false)
  | .mfcr rd n => .full (spWord 0x26#6 rd 0#5 n false)
  | .mtcr rd n => .full (spWord 0x27#6 rd 0#5 n false)
  | .mfsr rd n => .full (spWord 0x28#6 rd 0#5 n false)
  | .mtsr rd n => .full (spWord 0x29#6 rd 0#5 n false)
  | .tCond c => .full (spWord 0x2A#6 0#5 0#5 (c.code.setWidth 5) false)
  | .mvCond c rd ra => .full (spWord 0x2B#6 rd ra (c.code.setWidth 5) false)
  | .extsb rd ra cu => .full (spWord 0x2C#6 rd ra 0#5 cu)
  | .extsh rd ra cu => .full (spWord 0x2D#6 rd ra 0#5 cu)
  | .extzb rd ra cu => .full (spWord 0x2E#6 rd ra 0#5 cu)
  | .extzh rd ra cu => .full (spWord 0x2F#6 rd ra 0#5 cu)
  | .lcb rd ra => .full (spWord 0x30#6 rd ra 0#5 false)
  | .lcw rd ra => .full (spWord 0x31#6 rd ra 0#5 false)
  | .scb rd ra => .full (spWord 0x34#6 rd ra 0#5 false)
  | .scw rd ra => .full (spWord 0x35#6 rd ra 0#5 false)
  | .slli rd ra imm5 cu => .full (spWord 0x38#6 rd ra imm5 cu)
  | .srli rd ra imm5 cu => .full (spWord 0x3A#6 rd ra imm5 cu)
  | .srai rd ra imm5 cu => .full (spWord 0x3B#6 rd ra imm5 cu)
  | .rori rd ra imm5 cu => .full (spWord 0x3C#6 rd ra imm5 cu)
  | .roric rd ra imm5 cu => .full (spWord 0x3D#6 rd ra imm5 cu)
  | .roli rd ra imm5 cu => .full (spWord 0x3E#6 rd ra imm5 cu)
  | .rolic rd ra imm5 cu => .full (spWord 0x3F#6 rd ra imm5 cu)
  | .addi rd imm16 cu => .full (iWord 0x01#5 0#3 rd imm16 cu)
  | .addis rd imm16 cu => .full (iWord 0x05#5 0#3 rd imm16 cu)
  | .cmpi rd imm16 => .full (iWord 0x01#5 2#3 rd imm16 false)
  | .cmpis rd imm16 => .full (iWord 0x05#5 2#3 rd imm16 false)
  | .andi rd imm16 cu => .full (iWord 0x01#5 4#3 rd imm16 cu)
  | .andis rd imm16 cu => .full (iWord 0x05#5 4#3 rd imm16 cu)
  | .ori rd imm16 cu => .full (iWord 0x01#5 5#3 rd imm16 cu)
  | .oris rd imm16 cu => .full (iWord 0x05#5 5#3 rd imm16 cu)
  | .ldi rd imm16 => .full (iWord 0x01#5 6#3 rd imm16 false)
  | .ldis rd imm16 => .full (iWord 0x05#5 6#3 rd imm16 false)
  | .j disp24 => .full (jWord disp24 false)
  | .jl disp24 => .full (jWord disp24 true)
  | .bCond c disp22 => .full (bWord c disp22 false)
  | .bCondL c disp22 => .full (bWord c disp22 true)
  | .lwRix rd ra imm12 => .full (rixWord 0x03#5 0#3 rd ra imm12)
  | .lhRix rd ra imm12 => .full (rixWord 0x03#5 1#3 rd ra imm12)
  | .lhuRix rd ra imm12 => .full (rixWord 0x03#5 2#3 rd ra imm12)
  | .lbRix rd ra imm12 => .full (rixWord 0x03#5 3#3 rd ra imm12)
  | .swRix rd ra imm12 => .full (rixWord 0x03#5 4#3 rd ra imm12)
  | .shRix rd ra imm12 => .full (rixWord 0x03#5 5#3 rd ra imm12)
  | .lbuRix rd ra imm12 => .full (rixWord 0x03#5 6#3 rd ra imm12)
  | .sbRix rd ra imm12 => .full (rixWord 0x03#5 7#3 rd ra imm12)
  | .lwPi rd ra imm12 => .full (rixWord 0x07#5 0#3 rd ra imm12)
  | .lhPi rd ra imm12 => .full (rixWord 0x07#5 1#3 rd ra imm12)
  | .lhuPi rd ra imm12 => .full (rixWord 0x07#5 2#3 rd ra imm12)
  | .lbPi rd ra imm12 => .full (rixWord 0x07#5 3#3 rd ra imm12)
  | .swPi rd ra imm12 => .full (rixWord 0x07#5 4#3 rd ra imm12)
  | .shPi rd ra imm12 => .full (rixWord 0x07#5 5#3 rd ra imm12)
  | .lbuPi rd ra imm12 => .full (rixWord 0x07#5 6#3 rd ra imm12)
  | .sbPi rd ra imm12 => .full (rixWord 0x07#5 7#3 rd ra imm12)
  | .lw rd ra imm15 => .full (memWord 0#3 rd ra imm15)
  | .lh rd ra imm15 => .full (memWord 1#3 rd ra imm15)
  | .lhu rd ra imm15 => .full (memWord 2#3 rd ra imm15)
  | .lb rd ra imm15 => .full (memWord 3#3 rd ra imm15)
  | .sw rd ra imm15 => .full (memWord 4#3 rd ra imm15)
  | .sh rd ra imm15 => .full (memWord 5#3 rd ra imm15)
  | .lbu rd ra imm15 => .full (memWord 6#3 rd ra imm15)
  | .sb rd ra imm15 => .full (memWord 7#3 rd ra imm15)
  | .nopC => .short (crrHalf 0x4#4 0#4 0#5 0#5)
  | .mvC rd ra => .short (crrHalf 0x4#4 1#4 rd ra)
  | .brC ra => .short (crrHalf 0x4#4 2#4 0#5 ra)
  | .brlC ra => .short (crrHalf 0x4#4 3#4 0#5 ra)
  | .breakC => .short (crrHalf 0x4#4 4#4 0#5 0#5)
  | .addiC rd imm5 => .short (criHalf 0x6#4 0#3 rd imm5)
  | .cmpiC rd imm5 => .short (criHalf 0x6#4 1#3 rd imm5)
  | .andiC rd imm5 => .short (criHalf 0x6#4 2#3 rd imm5)
  | .oriC rd imm5 => .short (criHalf 0x6#4 3#3 rd imm5)
  | .ldiC rd imm5 => .short (criHalf 0x6#4 4#3 rd imm5)
  | .lwC rd ra => .short (crrHalf 0x7#4 0#4 rd ra)
  | .lhC rd ra => .short (crrHalf 0x7#4 1#4 rd ra)
  | .lhuC rd ra => .short (crrHalf 0x7#4 2#4 rd ra)
  | .lbC rd ra => .short (crrHalf 0x7#4 3#4 rd ra)
  | .swC rd ra => .short (crrHalf 0x7#4 4#4 rd ra)
  | .shC rd ra => .short (crrHalf 0x7#4 5#4 rd ra)
  | .lbuC rd ra => .short (crrHalf 0x7#4 6#4 rd ra)
  | .sbC rd ra => .short (crrHalf 0x7#4 7#4 rd ra)
  | .popC rd ra => .short (crrHalf 0x7#4 8#4 rd ra)
  | .pushC rd ra => .short (crrHalf 0x7#4 9#4 rd ra)
  | .bCondC c disp8 => .short (cbHalf c disp8)
  | .slliC rd imm5 => .short (criHalf 0xD#4 0#3 rd imm5)
  | .srliC rd imm5 => .short (criHalf 0xD#4 1#3 rd imm5)
  | .sraiC rd imm5 => .short (criHalf 0xD#4 2#3 rd imm5)
  | .roriC rd imm5 => .short (criHalf 0xD#4 3#3 rd imm5)
  | .roliC rd imm5 => .short (criHalf 0xD#4 4#3 rd imm5)
  | .extsbC rd ra => .short (crrHalf 0xE#4 0#4 rd ra)
  | .extshC rd ra => .short (crrHalf 0xE#4 1#4 rd ra)
  | .extzbC rd ra => .short (crrHalf 0xE#4 2#4 rd ra)
  | .extzhC rd ra => .short (crrHalf 0xE#4 3#4 rd ra)
  | .lwpC rd imm7 => .short (cspHalf false rd imm7)
  | .swpC rd imm7 => .short (cspHalf true rd imm7)

/-! ## The opcode table's numbering -/

/-- The halfword the model puts after a compressed instruction given alone: `nop!`, whose bit 14 is 1 (the convention
of 95_test_vectors.md section 0; log entry 4). -/
def compressedFollower : Half := 0x4000#16

/-- The word a fetch reads for an opcode-table instruction of `nbits` bits `w`: a row of 16 bits is a compressed
halfword, followed by `compressedFollower`; any other row is the word itself (log entry 4). -/
def tableFetchWord (nbits w : Nat) : Word :=
  if nbits ≤ 16 then (Code.short (BitVec.ofNat 16 w)).fetched compressedFollower else BitVec.ofNat 32 w

/-- The four bytes of a word as memory holds them, the least significant first (R71). -/
def bytesOfWord (w : Word) : List Byte := [field w 0 8, field w 8 8, field w 16 8, field w 24 8]

/-- The instruction the decoder reads from an opcode-table instruction of `nbits` bits `w`, laid out in bytes as
memory holds it. -/
def decodeTableWord (nbits w : Nat) : Option Instr :=
  match decodeBytes (bytesOfWord (tableFetchWord nbits w)) with
  | .ok i => some i
  | .error _ => none

end Sys2Proof
end

