-- ==== Sys2Proof/Config.lean ====
section
/-! DEFINITION. What the spec fixes for this hardware as parameters (00_scope.md R7, R8), as named constants,
and the one family of values the spec leaves free (20_memory.md R69). -/

namespace Sys2Proof.Config

/-- pc after reset (R7, R77). -/
abbrev bootVector : Word := 0x9E000000#32

/-- The link register r3 (R7, R22). -/
abbrev linkReg : Reg := 3#5

/-- SP_REG, the base register of the compressed SP-relative forms (R7, D14). -/
abbrev spReg : Reg := 2#5

/-- Segment of the DRAM region (R7, R76). -/
abbrev dramSegment : Nat := 0xA0

/-- DRAM size: 16 MiB (R7, R76). -/
abbrev dramSize : Nat := 0x1000000

/-- Segment of the FLASH region (R7, R76). -/
abbrev flashSegment : Nat := 0x9E

/-- FLASH size: 8 MiB (R7, R76). -/
abbrev flashSize : Nat := 0x800000

/-- FLASH_WRITABLE, whether guest stores reach FLASH (R7, D30). -/
abbrev flashWritable : Bool := false

/-- Segment of the MMIO register files (R7, R76). -/
abbrev mmioSegment : Nat := 0x08

/-- Segment of the CD-ROM controller (R7, R76). -/
abbrev cdromSegment : Nat := 0x09

/-- SINK_VALUE, what a read of the sink returns (R7, R68, D52). -/
abbrev sinkValue : Word := 0#32

/-- Offset of the INTC register file in the MMIO segment (R79). -/
abbrev intcOffset : Nat := 0x00000

/-- The INTC register file is 16 bytes long: four 32-bit registers (R79, R80). -/
abbrev intcSize : Nat := 16

/-- Offset of INT_MASK in the MMIO segment (R79, R80). -/
abbrev intMaskOffset : Nat := intcOffset + 0x0

/-- Offset of INT_PRIO in the MMIO segment (R79, R80). -/
abbrev intPrioOffset : Nat := intcOffset + 0x4

/-- Offset of INT_STATUS in the MMIO segment (R79, R80). -/
abbrev intStatusOffset : Nat := intcOffset + 0x8

/-- Offset of INT_ACK in the MMIO segment (R79, R80). -/
abbrev intAckOffset : Nat := intcOffset + 0xC

/-- Offset of the SPU in the MMIO segment, outside the CORE (R79). -/
abbrev spuOffset : Nat := 0x10000

/-- Offset of the VDU in the MMIO segment, outside the CORE (R79). -/
abbrev vduOffset : Nat := 0x40000

/-- Offset of the Timer in the MMIO segment, outside the CORE (R79, R356). -/
abbrev timerOffset : Nat := 0xA0000

/-- Offset of the UART in the MMIO segment, outside the CORE (R79). -/
abbrev uartOffset : Nat := 0xB0000

/-- FAULT_LIMIT: the CPU halts when fault_count exceeds it (R7, R350). -/
abbrev faultLimit : Nat := 100

/-- NUM_IRQ: the interrupt lines are 0 to 31 (R7, R340). -/
abbrev numIrq : Nat := 32

/-- The line of VBlank (R345). -/
abbrev irqVBlank : Nat := 4

/-- The line of the Timer (R345, R356). -/
abbrev irqTimer : Nat := 5

/-- The line of the CD-ROM controller (R345). -/
abbrev irqCdrom : Nat := 6

/-- The line of the UART (R345). -/
abbrev irqUart : Nat := 7

/-- The line of Audio (R345). -/
abbrev irqAudio : Nat := 10

/-- ILLEGAL_FETCH_CAUSE, the synthetic cause of an unfetchable pc (R7, R336). -/
abbrev illegalFetchCause : BitVec 8 := 0xFF#8

/-- The cause of `syscall` (R172, R332). -/
abbrev syscallCause : BitVec 8 := 0x01#8

/-- The cause of `trap` (R173, R332). -/
abbrev trapCause : BitVec 8 := 0x02#8

/-- The cause of `sdbbp` and `break!` (R174, R295, R332). -/
abbrev debugCause : BitVec 8 := 0x03#8

/-- FREE VALUE (R69, D50; log entry 5). The value of the k-th read of a peripheral register outside the INTC: the
spec defines none ("a model treats it as a draw (any value)"). No body: nothing can be proved of its value. The
counter `State.draws` picks the draw, so two reads are never assumed equal (R75). -/
opaque peripheralDraw : Nat → Word

end Sys2Proof.Config
end

