-- ==== Sys2Proof/Machine/State.lean ====
section
/-! DEFINITION. The state of the CORE as plain data (spec 10_state.md R20 to R50): the CPU, the INTC, the MIU and the
run-control state the host reaches, and the value of all of it after reset (R48, 70_reset_and_hazards.md R370). The
operations over it are in Cells, Flags, Operands and Ops. -/

namespace Sys2Proof.Machine

/-- The dense-array regions of the memory map (R47, R76). -/
inductive Dense where
  /-- 16 MiB of read/write memory -/
  | dram
  /-- 8 MiB of firmware; guest writes are discarded while FLASH_WRITABLE is false (D30) -/
  | flash
deriving DecidableEq, Repr

/-- What a segment can be bound to (R16, R46, R76). -/
inductive Region where
  /-- a dense byte array -/
  | dense (d : Dense)
  /-- the MMIO register files of segment 0x08: the INTC registers, and peripherals outside the CORE (R79) -/
  | mmio
  /-- the CD-ROM controller's register file, outside the CORE (R79) -/
  | cdrom
  /-- the explicitly-empty region (R68) -/
  | sink
deriving DecidableEq, Repr

/-- The five flags (R27). sr0 is a view of them, not a separate store (R28). -/
structure Flags where
  /-- sign of a result -/
  n : Bool
  /-- zero result -/
  z : Bool
  /-- carry, no-borrow, or the last bit shifted out -/
  c : Bool
  /-- signed overflow -/
  v : Bool
  /-- test bit -/
  t : Bool
deriving DecidableEq, Repr

/-- The interrupt controller's state (R45). -/
structure Intc where
  /-- INT_MASK: bit i = 1 enables line i -/
  mask : Word
  /-- INT_STATUS: bit i = 1 when line i is pending -/
  status : Word
  /-- INT_PRIO: storage with no function (R346) -/
  prio : Word
  /-- cpu_connected -/
  cpuConnected : Bool
  /-- the host's diagnostic counter of refused triggers (R45, R340) -/
  blocked : Nat
deriving DecidableEq, Repr

/-- The dense regions' bytes as (key, byte) pairs in the canonical form of `Memory.wf`. The key of the byte at offset
`off` of a dense region is the region's home address plus `off`: under the memory map of R76, the byte's own address
(log entry 8). A byte that is not listed reads 0, the spec's initial contents (D58). -/
abbrev Memory := List Host.Cell

/-- The segment table as (segment, region) pairs in the canonical form of `Cells.wf`; a segment that is not listed is
bound to the sink (R46, R76, D31). -/
abbrev Segments := List (Nat × Region)

/-- The whole state of the machine. -/
structure State where
  /-- r1 to r31. r0 is hard-wired to zero and has no storage (R20, R21; log entry 7). -/
  gpr : Vector Word 31
  /-- the program counter (R24) -/
  pc : Word
  /-- N, Z, C, V, T (R27) -/
  flags : Flags
  /-- sr1 to sr31 (R31). sr0 is the view `pack` of the flags (R28; log entry 7). -/
  sr : Vector Word 31
  /-- cr0 to cr31 (R32 to R37) -/
  cr : Vector Word 32
  /-- CEL, the low word of the custom-engine pair (R38) -/
  cel : Word
  /-- CEH, the high word of the custom-engine pair (R38) -/
  ceh : Word
  /-- the `cycles` counter (R39) -/
  cycles : DWord
  /-- the `instructions` counter (R39) -/
  instructions : DWord
  /-- `halted` (R40) -/
  halted : Bool
  /-- `fault_count`, the consecutive failed-step counter; it has no width limit (R41) -/
  faultCount : Nat
  /-- `initialized` (R42) -/
  initialized : Bool
  /-- `miu_attached` (R43) -/
  miuAttached : Bool
  /-- `paused` (R44) -/
  paused : Bool
  /-- the host's breakpoint addresses, strictly rising (R44; log entry 9) -/
  breakpoints : List Nat
  /-- the INTC (R45) -/
  intc : Intc
  /-- the segment table (R46) -/
  segments : Segments
  /-- the bytes of the dense regions (R47) -/
  mem : Memory
  /-- THE MODEL'S OWN field, not the spec's: how many peripheral reads there have been. It picks the free value of
  the next one (`Config.peripheralDraw`; log entry 5). -/
  draws : Nat
deriving DecidableEq, Repr

/-- Why the machine stops. Only the host error of R353 stops it; every other outcome of a step is a next state. -/
inductive Fault where
  /-- `Error(NotInitialized)` (R18, R100 item 1, R353). Raised by `step` while `initialized` is false, and by the host
  call `initializeCPU` without an interface. SAFE: the spec's own outcome, with no state change. -/
  | notInitialized
deriving DecidableEq, Repr

/-- Why an operation has no meaning in the model. -/
inductive Refusal where
  /-- An instruction without a meaning. Raised by no arm of `exec`: every instruction has its meaning. SAFE. -/
  | notModelled (mnemonic : String)
  /-- A host load of more bytes than the region holds, outside the host's contract of R371. Raised by the host event
  `loadImage` only, never by `step`. SAFE: the spec gives the call no effect. -/
  | imageTooLarge
  /-- A rebinding of a segment outside setup and reset, outside the host's contract of R17, R62 and R91. Raised by the
  host event `setRegion` while the CPU is initialized (log entry 20), never by `step`. SAFE: the spec gives the call no
  effect. -/
  | rebindAfterSetup
deriving DecidableEq, Repr

/-- What a meaning answers. -/
abbrev Result := Host.Outcome State Fault Refusal

/-- The segment table of the memory map (R76). -/
def standardSegments : Segments :=
  [(Config.mmioSegment, .mmio), (Config.cdromSegment, .cdrom), (Config.flashSegment, .dense .flash),
   (Config.dramSegment, .dense .dram)]

/-- The CORE as constructed, with the segment table bound and before `initializeCPU` and the INTC's connect call (R48;
R370 items 1, 3 and the construction in item 5). -/
def State.constructed : State where
  gpr := Vector.replicate 31 0#32
  pc := Config.bootVector
  flags := ⟨false, false, false, false, false⟩
  sr := Vector.replicate 31 0#32
  cr := Vector.replicate 32 0#32
  cel := 0#32
  ceh := 0#32
  cycles := 0#64
  instructions := 0#64
  halted := false
  faultCount := 0
  initialized := false
  miuAttached := false
  paused := false
  breakpoints := []
  intc := ⟨0xFFFFFFFF#32, 0#32, 0#32, false, 0⟩
  segments := standardSegments
  mem := []
  draws := 0

/-- The machine right after reset: the construction AND the setup of R370, so the CPU is initialized, the MIU is
attached and the INTC is connected (95_test_vectors.md section 0; log entry 1). No firmware is in FLASH (log entry 2). -/
def State.reset : State :=
  { State.constructed with
    initialized := true
    miuAttached := true
    intc := ⟨0xFFFFFFFF#32, 0#32, 0#32, true, 0⟩ }

end Sys2Proof.Machine
end

