-- ==== Sys2Proof/Machine/Cells.lean ====
section
/-! DEFINITION. Sparse storage: a list of (key, value) pairs in one canonical form, keys strictly rising and no entry
equal to the default an unlisted key reads as. Memory (default byte 0) and the segment table (default the sink) are
both held so. -/

namespace Sys2Proof.Machine

variable {α : Type}

/-- The value at key `k`; `d` where the list has none. -/
def Cells.get (d : α) (k : Nat) : List (Nat × α) → α
  | [] => d
  | (k', v) :: rest => if k = k' then v else Cells.get d k rest

/-- The list with `v` at key `k`, in place. -/
def Cells.put (k : Nat) (v : α) : List (Nat × α) → List (Nat × α)
  | [] => [(k, v)]
  | (k', v') :: rest =>
    if k < k' then (k, v) :: (k', v') :: rest
    else if k = k' then (k, v) :: rest
    else (k', v') :: Cells.put k v rest

/-- The list without key `k`. -/
def Cells.drop (k : Nat) (l : List (Nat × α)) : List (Nat × α) := l.filter (fun p => decide (p.1 ≠ k))

/-- Storing `v` at key `k`: storing the default removes the entry. -/
def Cells.set [DecidableEq α] (d : α) (k : Nat) (v : α) (l : List (Nat × α)) : List (Nat × α) :=
  if v = d then Cells.drop k l else Cells.put k v l

/-- The canonical form: keys strictly rising, no entry equal to the default. -/
def Cells.wf [DecidableEq α] (d : α) : List (Nat × α) → Bool
  | [] => true
  | (k, v) :: rest => decide (v ≠ d) && rest.all (fun p => decide (k < p.1)) && Cells.wf d rest

/-! ## Memory -/

/-- What a byte of a dense region that nothing has written reads as: 0 (D58, R48, R371). -/
def unlistedByte : Byte := 0#8

/-- The byte at a key. -/
def Memory.get (m : Memory) (k : Nat) : Byte := Cells.get unlistedByte k m

/-- Memory with a byte stored. -/
def Memory.set (m : Memory) (k : Nat) (b : Byte) : Memory := Cells.set unlistedByte k b m

/-- The canonical form of memory. -/
def Memory.wf (m : Memory) : Bool := Cells.wf unlistedByte m

/-- The `n` bytes from key `k` up. -/
def Memory.readBytes (m : Memory) (k : Nat) : Nat → List Byte
  | 0 => []
  | n + 1 => m.get k :: Memory.readBytes m (k + 1) n

/-- Memory with the bytes stored from key `k` up. -/
def Memory.writeBytes (m : Memory) (k : Nat) : List Byte → Memory
  | [] => m
  | b :: bs => Memory.writeBytes (m.set k b) (k + 1) bs

/-! ## The dense regions and the segment table -/

/-- The key of the byte at offset 0 of a dense region: its address under the map of R76 (log entry 8). -/
def Dense.home : Dense → Nat
  | .dram => Config.dramSegment * 0x1000000
  | .flash => Config.flashSegment * 0x1000000

/-- The size of a dense region in bytes (R7, R76). -/
def Dense.size : Dense → Nat
  | .dram => Config.dramSize
  | .flash => Config.flashSize

/-- Whether a guest store reaches a dense region (R67, D30). -/
def Dense.guestWritable : Dense → Bool
  | .dram => true
  | .flash => Config.flashWritable

/-- A key that holds a byte of some dense region. -/
def Dense.holdsKey (k : Nat) : Bool :=
  (decide (Dense.dram.home ≤ k) && decide (k < Dense.dram.home + Dense.dram.size))
    || (decide (Dense.flash.home ≤ k) && decide (k < Dense.flash.home + Dense.flash.size))

/-- The region a segment is bound to: a segment not listed is bound to the sink (R46, D31). -/
def Segments.get (t : Segments) (seg : Nat) : Region := Cells.get Region.sink seg t

/-- The table with a segment bound, replacing its earlier binding (R62). -/
def Segments.set (t : Segments) (seg : Nat) (r : Region) : Segments := Cells.set Region.sink seg r t

end Sys2Proof.Machine
end

