-- ==== Sys2Proof/Machine/Flags.lean ====
section
/-! DEFINITION. The flags and the ALU primitives of spec 40_alu_primitives.md: for each primitive its result and the
flags it leaves, as two functions over words and flags. `uf` is the request to update the flags (R141); with `uf` false
no flag changes. -/

namespace Sys2Proof.Machine

/-! ## pack, unpack and the conditions -/

/-- `pack()`: N at bit 31, Z at 30, C at 29, V at 28, T at 0, zero elsewhere (00_scope.md R14). -/
def Flags.pack (f : Flags) : Word :=
  (BitVec.ofBool f.n).setWidth 32 <<< 31 ||| (BitVec.ofBool f.z).setWidth 32 <<< 30
    ||| (BitVec.ofBool f.c).setWidth 32 <<< 29 ||| (BitVec.ofBool f.v).setWidth 32 <<< 28
    ||| (BitVec.ofBool f.t).setWidth 32

/-- `unpack(w)` (R14). -/
def Flags.unpack (w : Word) : Flags :=
  ⟨w.getLsbD 31, w.getLsbD 30, w.getLsbD 29, w.getLsbD 28, w.getLsbD 0⟩

/-- `cond(c)`: the truth table of R160. -/
def Flags.cond (f : Flags) : Cond → Bool
  | .cs => f.c
  | .cc => !f.c
  | .hi => f.c && !f.z
  | .ls => !f.c || f.z
  | .eq => f.z
  | .ne => !f.z
  | .gt => !f.z && f.n == f.v
  | .le => f.z || f.n != f.v
  | .ge => f.n == f.v
  | .lt => f.n != f.v
  | .mi => f.n
  | .pl => !f.n
  | .vs => f.v
  | .vc => !f.v
  | .t => f.t
  | .al => true

/-! ## Add and subtract -/

/-- The result of `ADD(a, b, cin)` (R142). -/
def addResult (a b : Word) (cin : Bool) : Word := BitVec.ofNat 32 (a.toNat + b.toNat + cin.toNat)

/-- The flags of `ADD(a, b, cin, uf)`: C is the true carry out of bit 31 (R142, D23). -/
def Flags.add (f : Flags) (uf : Bool) (a b : Word) (cin : Bool) : Flags :=
  let res := addResult a b cin
  if uf then
    { f with
      n := res.getLsbD 31
      z := decide (res = 0#32)
      c := decide (2 ^ 32 ≤ a.toNat + b.toNat + cin.toNat)
      v := (~~~(a ^^^ b) &&& (a ^^^ res)).getLsbD 31 }
  else f

/-- The result of `SUB(a, b, bin)` with the borrow-in `bin` (R143). -/
def subResult (a b : Word) (bin : Bool) : Word :=
  BitVec.ofInt 32 ((a.toNat : Int) - (b.toNat : Int) - (bin.toNat : Int))

/-- The flags of `SUB(a, b, bin, uf)`: C is carry-as-no-borrow (R143, D23). -/
def Flags.sub (f : Flags) (uf : Bool) (a b : Word) (bin : Bool) : Flags :=
  let res := subResult a b bin
  if uf then
    { f with
      n := res.getLsbD 31
      z := decide (res = 0#32)
      c := decide (b.toNat + bin.toNat ≤ a.toNat)
      v := ((a ^^^ b) &&& ~~~(res ^^^ b)).getLsbD 31 }
  else f

/-! ## N and Z only -/

/-- The flags of `NZ(res, uf)`: C, V and T are kept (R145, D25). -/
def Flags.nz (f : Flags) (uf : Bool) (res : Word) : Flags :=
  if uf then { f with n := res.getLsbD 31, z := decide (res = 0#32) } else f

/-! ## Shifts and rotates -/

/-- The kinds of `SHIFT` (R146). -/
inductive ShiftKind where
  /-- shift left logical -/
  | sll
  /-- shift right logical -/
  | srl
  /-- shift right arithmetic -/
  | sra
  /-- rotate right -/
  | ror
  /-- rotate left -/
  | rol
deriving DecidableEq, Repr

/-- The shift amount masked to 0 to 31 (R146, R147). -/
def shiftAmount (amount : Word) : Nat := (amount &&& 31#32).toNat

/-- The result of `SHIFT(kind, a, amount)`; the value itself when the masked amount is 0 (R146). -/
def shiftResult (kind : ShiftKind) (a amount : Word) : Word :=
  let n := shiftAmount amount
  if n = 0 then a
  else
    match kind with
    | .sll => a <<< n
    | .srl => a >>> n
    | .sra => a.sshiftRight n
    | .ror => (a >>> n) ||| (a <<< (32 - n))
    | .rol => (a <<< n) ||| (a >>> (32 - n))

/-- The carry-out of a shift by `n` in 1 to 31: the last bit shifted out (R146). -/
def shiftCarry (kind : ShiftKind) (a : Word) (n : Nat) : Bool :=
  match kind with
  | .sll => a.getLsbD (32 - n)
  | .srl => a.getLsbD (n - 1)
  | .sra => a.getLsbD (n - 1)
  | .ror => a.getLsbD (n - 1)
  | .rol => a.getLsbD (32 - n)

/-- The flags of `SHIFT(kind, a, amount, uf)`: an amount of 0 leaves C (R146). -/
def Flags.shift (f : Flags) (uf : Bool) (kind : ShiftKind) (a amount : Word) : Flags :=
  let res := shiftResult kind a amount
  let n := shiftAmount amount
  if uf then
    { f with
      n := res.getLsbD 31
      z := decide (res = 0#32)
      c := if n = 0 then f.c else shiftCarry kind a n }
  else f

/-- The kinds of `ROTC` (R147). -/
inductive RotateKind where
  /-- rotate right through carry -/
  | rorc
  /-- rotate left through carry -/
  | rolc
deriving DecidableEq, Repr

/-- One step of a rotate through the carry: the word and the carry after it (R147). -/
def rotateStep (kind : RotateKind) (res : Word) (cc : Bool) : Word × Bool :=
  match kind with
  | .rorc => ((res >>> 1) ||| ((BitVec.ofBool cc).setWidth 32 <<< 31), res.getLsbD 0)
  | .rolc => ((res <<< 1) ||| (BitVec.ofBool cc).setWidth 32, res.getLsbD 31)

/-- `n` steps of a rotate through the carry (R147). -/
def rotateSteps (kind : RotateKind) : Nat → Word → Bool → Word × Bool
  | 0, res, cc => (res, cc)
  | n + 1, res, cc =>
    let r := rotateStep kind res cc
    rotateSteps kind n r.1 r.2

/-- The result of `ROTC(kind, a, amount)` with the carry `cc` before it (R147, D24). -/
def rotateResult (kind : RotateKind) (a amount : Word) (cc : Bool) : Word :=
  (rotateSteps kind (shiftAmount amount) a cc).1

/-- The flags of `ROTC(kind, a, amount, uf)`: C receives the carry after the last step, and keeps its value when `uf`
is false or the amount is 0 (R147). -/
def Flags.rotate (f : Flags) (uf : Bool) (kind : RotateKind) (a amount : Word) : Flags :=
  let r := rotateSteps kind (shiftAmount amount) a f.c
  if uf then
    { f with
      n := r.1.getLsbD 31
      z := decide (r.1 = 0#32)
      c := if shiftAmount amount = 0 then f.c else r.2 }
  else f

/-! ## Extension -/

/-- EXTSB (R149). -/
def extsbResult (a : Word) : Word := (a.setWidth 8).signExtend 32

/-- EXTSH (R149). -/
def extshResult (a : Word) : Word := (a.setWidth 16).signExtend 32

/-- EXTZB (R149). -/
def extzbResult (a : Word) : Word := (a.setWidth 8).setWidth 32

/-- EXTZH (R149). -/
def extzhResult (a : Word) : Word := (a.setWidth 16).setWidth 32

/-! ## Single-bit operations -/

/-- BITCLR(a, k) (R150). -/
def bitclrResult (a : Word) (k : BitVec 5) : Word := a &&& ~~~(1#32 <<< k.toNat)

/-- BITSET(a, k) (R150). -/
def bitsetResult (a : Word) (k : BitVec 5) : Word := a ||| (1#32 <<< k.toNat)

/-- BITTGL(a, k) (R150). -/
def bittglResult (a : Word) (k : BitVec 5) : Word := a ^^^ (1#32 <<< k.toNat)

/-- The flags of BITTST(a, k): T is the bit and Z its inverse, always; N, C and V are kept (R150). -/
def Flags.bittst (f : Flags) (a : Word) (k : BitVec 5) : Flags :=
  { f with t := a.getLsbD k.toNat, z := !a.getLsbD k.toNat }

/-! ## Multiply and divide: the pair (CEL, CEH) -/

/-- The low and high words of a 64-bit product (R151). -/
def splitProduct (p : DWord) : Word × Word := (p.setWidth 32, (p >>> 32).setWidth 32)

/-- MUL(a, b), signed (R151). -/
def mulPair (a b : Word) : Word × Word := splitProduct (BitVec.ofInt 64 (a.toInt * b.toInt))

/-- MULU(a, b), unsigned (R151). -/
def muluPair (a b : Word) : Word × Word := splitProduct (BitVec.ofNat 64 (a.toNat * b.toNat))

/-- DIV(a, b), signed, rounded toward zero, the remainder with the dividend's sign; `none` for a divisor of 0, which
changes nothing (R153, R154). -/
def divPair (a b : Word) : Option (Word × Word) :=
  if b = 0#32 then none
  else
    let q := Int.tdiv a.toInt b.toInt
    some (BitVec.ofInt 32 q, BitVec.ofInt 32 (a.toInt - q * b.toInt))

/-- DIVU(a, b), unsigned; `none` for a divisor of 0 (R152, R154). -/
def divuPair (a b : Word) : Option (Word × Word) :=
  if b = 0#32 then none else some (BitVec.ofNat 32 (a.toNat / b.toNat), BitVec.ofNat 32 (a.toNat % b.toNat))

end Sys2Proof.Machine
end

