-- ==== Sys2Proof/Machine/Operands.lean ====
section
/-! DEFINITION. The operand forms: immediates (spec 30_encoding.md R120, R123 to R126), branch and jump targets (R121,
R122, R126), and the load/store operations of 44_rix_memory_form.md R260: their access widths and extensions. -/

namespace Sys2Proof.Machine

/-! ## Immediates -/

/-- The signed operand of I-Form op 0x01 (R120). -/
def lowSimm (imm : BitVec 16) : Word := imm.signExtend 32

/-- The unsigned operand of I-Form op 0x01 (R120). -/
def lowUimm (imm : BitVec 16) : Word := imm.setWidth 32

/-- The operand of I-Form op 0x05, signed and unsigned alike (R120). -/
def upperImm (imm : BitVec 16) : Word := imm.setWidth 32 <<< 16

/-- A 5-bit unsigned operand: a shift amount, or the operand of `andi!` and `ori!` (R125, R126). -/
def uimm5 (imm : BitVec 5) : Word := imm.setWidth 32

/-- The signed operand of `addi!`, `cmpi!` and `ldi!` (R126). -/
def simm5 (imm : BitVec 5) : Word := imm.signExtend 32

/-! ## Offsets of loads and stores -/

/-- The RIX offset, not scaled (R123). -/
def rixOffset (imm : BitVec 12) : Word := imm.signExtend 32

/-- The Memory-Form offset, not scaled (R124). -/
def memOffset (imm : BitVec 15) : Word := imm.signExtend 32

/-- The SP-relative offset, in words (R126, R321). -/
def spOffset (imm : BitVec 7) : Word := imm.setWidth 32 <<< 2

/-! ## Targets -/

/-- The J-Form target, relative to the jump's own address (R121). -/
def jTarget (pc : Word) (disp : BitVec 24) : Word := pc + (disp.signExtend 32 <<< 1)

/-- The B-Form target, relative to the branch's own address (R122). -/
def bTarget (pc : Word) (disp : BitVec 22) : Word := pc + (disp.signExtend 32 <<< 1)

/-- The compressed branch target (R126, R311). -/
def bcTarget (pc : Word) (disp : BitVec 8) : Word := pc + (disp.signExtend 32 <<< 1)

/-! ## Load and store operations -/

/-- The width of a memory access (R12, R73). -/
inductive Width where
  /-- 1 byte -/
  | byte
  /-- 2 bytes -/
  | half
  /-- 4 bytes -/
  | word
deriving DecidableEq, Repr

/-- The width in bytes. -/
def Width.bytes : Width → Nat
  | .byte => 1
  | .half => 2
  | .word => 4

/-- The loads of R260. -/
inductive LoadOp where
  /-- load 4 bytes -/
  | lw
  /-- load 2 bytes, signed -/
  | lh
  /-- load 2 bytes, unsigned -/
  | lhu
  /-- load 1 byte, signed -/
  | lb
  /-- load 1 byte, unsigned -/
  | lbu
deriving DecidableEq, Repr

/-- The stores of R260. -/
inductive StoreOp where
  /-- store 4 bytes -/
  | sw
  /-- store 2 bytes -/
  | sh
  /-- store 1 byte -/
  | sb
deriving DecidableEq, Repr

/-- The access width of a load (R260). -/
def LoadOp.width : LoadOp → Width
  | .lw => .word
  | .lh => .half
  | .lhu => .half
  | .lb => .byte
  | .lbu => .byte

/-- What a load makes of the value the MIU read returns (R260). -/
def LoadOp.extend : LoadOp → Word → Word
  | .lw, v => v
  | .lh, v => (v.setWidth 16).signExtend 32
  | .lhu, v => (v.setWidth 16).setWidth 32
  | .lb, v => (v.setWidth 8).signExtend 32
  | .lbu, v => (v.setWidth 8).setWidth 32

/-- The access width of a store (R260). -/
def StoreOp.width : StoreOp → Width
  | .sw => .word
  | .sh => .half
  | .sb => .byte

end Sys2Proof.Machine
end

