-- ==== Sys2Proof/Machine/Ops.lean ====
section
/-! DEFINITION. The named operations over the state: registers, flags, pc, the MIU's reads and writes with the INTC
register file, taking an exception and returning from one, and the shared shapes the instruction meanings are built of. -/

namespace Sys2Proof.Machine

/-! ## Registers -/

/-- `x[r]`: r0 always reads 0 (R10, R21). -/
def State.getReg (s : State) (r : Reg) : Word :=
  if r = 0#5 then 0#32 else s.gpr[r.toNat - 1]'(by have := r.isLt; omega)

/-- `x[r] <- v`: a write to r0 is discarded (R10, R21). -/
def State.setReg (s : State) (r : Reg) (v : Word) : State :=
  if r = 0#5 then s else { s with gpr := s.gpr.set (r.toNat - 1) v (by have := r.isLt; omega) }

/-- `sr[n]`: sr0 is the packed flags (R28, R31). -/
def State.getSr (s : State) (n : SpecialIdx) : Word :=
  if n = 0#5 then s.flags.pack else s.sr[n.toNat - 1]'(by have := n.isLt; omega)

/-- `sr[n] <- v`: a write to sr0 unpacks into the flags (R28, R31). -/
def State.setSr (s : State) (n : SpecialIdx) (v : Word) : State :=
  if n = 0#5 then { s with flags := Flags.unpack v }
  else { s with sr := s.sr.set (n.toNat - 1) v (by have := n.isLt; omega) }

/-- `cr[n]` (R32). -/
def State.getCr (s : State) (n : SpecialIdx) : Word := s.cr[n.toNat]'(n.isLt)

/-- `cr[n] <- v` (R32). -/
def State.setCr (s : State) (n : SpecialIdx) (v : Word) : State :=
  { s with cr := s.cr.set n.toNat v n.isLt }

/-- The state with its flags replaced. -/
def State.setFlags (s : State) (f : Flags) : State := { s with flags := f }

/-- `CEL <- lo; CEH <- hi` (R38). -/
def State.setCe (s : State) (lo hi : Word) : State := { s with cel := lo, ceh := hi }

/-- `pc <- target` (R10). -/
def State.jump (s : State) (target : Word) : State := { s with pc := target }

/-- A non-zero delta: `pc <- pc + delta` modulo 2^32 (R25, R106). -/
def State.advance (s : State) (delta : Word) : State := { s with pc := s.pc + delta }

/-! ## Bytes of words -/

/-- Byte `k` of a word, 0 the least significant. -/
def byteOf (v : Word) (k : Nat) : Byte := (v >>> (8 * k)).setWidth 8

/-- The word with byte `k` replaced. -/
def withByte (v : Word) (k : Nat) (b : Byte) : Word :=
  (v &&& ~~~((0xFF#8).setWidth 32 <<< (8 * k))) ||| (b.setWidth 32 <<< (8 * k))

/-- The little-endian value of up to four bytes, the first at the lowest address (R66, R71). -/
def leWord : List Byte → Word
  | [] => 0#32
  | b :: bs => b.setWidth 32 ||| (leWord bs <<< 8)

/-- The `n` low bytes of a word, least significant first (R67, R71). -/
def leBytes (v : Word) (n : Nat) : List Byte := (List.range n).map (byteOf v)

/-! ## The INTC register file -/

/-- The offset `off` of the MMIO segment is inside the INTC register file (R79, R80). -/
def inIntc (off : Nat) : Bool := decide (Config.intcOffset ≤ off ∧ off < Config.intcOffset + Config.intcSize)

/-- The offset `off` is one of the four bytes of the 32-bit register at offset `reg` (R80, R81). -/
def inRegister (reg off : Nat) : Bool := decide (reg ≤ off ∧ off < reg + 4)

/-- The byte at offset `off` of the MMIO segment, inside the INTC register file: INT_MASK, INT_PRIO, INT_STATUS, and
INT_ACK, which reads 0 (R80, R81). -/
def Intc.readByte (c : Intc) (off : Nat) : Byte :=
  if inRegister Config.intMaskOffset off then byteOf c.mask (off - Config.intMaskOffset)
  else if inRegister Config.intPrioOffset off then byteOf c.prio (off - Config.intPrioOffset)
  else if inRegister Config.intStatusOffset off then byteOf c.status (off - Config.intStatusOffset)
  else 0#8

/-- A byte written at offset `off` of the MMIO segment, inside the INTC register file: INT_MASK and INT_PRIO take it,
INT_ACK clears the STATUS bits it sets, and INT_STATUS ignores it (R80, R81). -/
def Intc.writeByte (c : Intc) (off : Nat) (b : Byte) : Intc :=
  if inRegister Config.intMaskOffset off then { c with mask := withByte c.mask (off - Config.intMaskOffset) b }
  else if inRegister Config.intPrioOffset off then { c with prio := withByte c.prio (off - Config.intPrioOffset) b }
  else if inRegister Config.intAckOffset off then
    { c with status := c.status &&& ~~~(b.setWidth 32 <<< (8 * (off - Config.intAckOffset))) }
  else c

/-- The bytes of an access of `n` bytes at offset `off` of the MMIO segment: those inside the INTC register file, and
beyond it those of the draw `v` (R69, R79, R81; log entry 6). -/
def Intc.readBytes (c : Intc) (v : Word) (off n : Nat) : List Byte :=
  (List.range n).map fun k => if inIntc (off + k) then c.readByte (off + k) else byteOf v k

/-- The INTC after the bytes are written from offset `off` of the MMIO segment up; a byte beyond the INTC register
file goes to a peripheral and changes nothing here (R69, R81). -/
def Intc.writeBytes (c : Intc) (off : Nat) : List Byte → Intc
  | [] => c
  | b :: bs => Intc.writeBytes (if inIntc off then c.writeByte off b else c) (off + 1) bs

/-! ## The MIU -/

/-- The segment of an address (R61). -/
def segmentOf (a : Word) : Nat := (a >>> 24).toNat

/-- The offset of an address, the only part of it a region receives (R61). -/
def offsetOf (a : Word) : Nat := (a &&& 0xFFFFFF#32).toNat

/-- The region an address is routed to (R62). -/
def State.region (s : State) (a : Word) : Region := s.segments.get (segmentOf a)

/-- The free value of the next peripheral read, zero-extended from `n` bytes (R69). -/
def State.draw (s : State) (n : Nat) : Word := leWord (leBytes (Config.peripheralDraw s.draws) n)

/-- `MemRead(a, n)`: the value, zero-extended, and the state after the read (R64, R66, R68 to R70, R80, R81). Only a
read that reaches a peripheral changes the state: it uses up one draw (R75; log entry 5). -/
def State.memRead (s : State) (a : Word) (w : Width) : Word × State :=
  let off := offsetOf a
  let n := w.bytes
  match s.region a with
  | .dense d => (if off + n ≤ d.size then leWord (s.mem.readBytes (d.home + off) n) else 0#32, s)
  | .mmio =>
    if Config.intcOffset ≤ off ∧ off + n ≤ Config.intcOffset + Config.intcSize then
      (leWord (s.intc.readBytes 0#32 off n), s)
    else (leWord (s.intc.readBytes (Config.peripheralDraw s.draws) off n), { s with draws := s.draws + 1 })
  | .cdrom => (s.draw n, { s with draws := s.draws + 1 })
  | .sink => (Config.sinkValue, s)

/-- `MemWrite(a, n, v)` with the low 8n bits of `v` (R65, R67 to R70, R80, R81). -/
def State.memWrite (s : State) (a : Word) (w : Width) (v : Word) : State :=
  let off := offsetOf a
  let n := w.bytes
  match s.region a with
  | .dense d =>
    if d.guestWritable && decide (off + n ≤ d.size) then
      { s with mem := s.mem.writeBytes (d.home + off) (leBytes v n) }
    else s
  | .mmio => { s with intc := s.intc.writeBytes off (leBytes v n) }
  | .cdrom => s
  | .sink => s

/-- The model's read of ONE byte, with no side effect: what the byte at `a` holds, or `none` where it is a peripheral's
and the spec gives it no value (R69). Frames are stated through it. -/
def State.peekByte (s : State) (a : Word) : Option Byte :=
  match s.region a with
  | .dense d => some (if offsetOf a < d.size then s.mem.get (d.home + offsetOf a) else 0#8)
  | .mmio => if inIntc (offsetOf a) then some (s.intc.readByte (offsetOf a)) else none
  | .cdrom => none
  | .sink => some (Config.sinkValue.setWidth 8)

/-- The state with host-loaded bytes in a dense region from offset `off` up: not a guest store (R371, D30). -/
def State.loadBytes (s : State) (d : Dense) (off : Nat) (bs : List Byte) : State :=
  { s with mem := s.mem.writeBytes (d.home + off) bs }

/-! ## Exceptions -/

/-- `cause` into cr2[23:18], the other bits kept (R35, R330, D17). -/
def withCause (cr2 : Word) (cause : BitVec 8) : Word :=
  (cr2 &&& ~~~0x00FC0000#32) ||| ((cause.setWidth 32 &&& 0x3F#32) <<< 18)

/-- The address of the handler of `cause`: the full cause indexes the table (R36, R330, D18). -/
def vectorOf (base : Word) (cause : BitVec 8) : Word := base + cause.setWidth 32 * 4#32

/-- TAKING AN EXCEPTION, `Exception(cause)` (60_exceptions.md R330): cr1 receives the packed flags, cr2[23:18] the
cause, cr5 the pc, cr0 bit 0 is cleared and pc is the vector, in that order. The saved pc is the current pc for every
kind of exception: the raising instruction's own address, the pc between steps, or the unfetchable pc (R333, R24). -/
def State.takeException (s : State) (cause : BitVec 8) : State :=
  let s1 := s.setCr 1#5 s.flags.pack
  let s2 := s1.setCr 2#5 (withCause (s1.getCr 2#5) cause)
  let s3 := s2.setCr 5#5 s2.pc
  let s4 := s3.setCr 0#5 (s3.getCr 0#5 &&& ~~~1#32)
  s4.jump (vectorOf (s4.getCr 3#5) cause)

/-- RETURNING FROM AN EXCEPTION: `unpack(cr1)` and `pc <- cr5`; cr0 is not restored (R176, R331, R33). -/
def State.returnFromException (s : State) : State :=
  (s.setFlags (Flags.unpack (s.getCr 1#5))).jump (s.getCr 5#5)

/-! ## Shapes shared by the meanings -/

/-- An instruction that goes on at the next 32-bit instruction: delta 4 (R106). -/
def State.next4 (s : State) : Result := .next (s.advance 4#32)

/-- An instruction that goes on at the next halfword: delta 2 (R106, R290). -/
def State.next2 (s : State) : Result := .next (s.advance 2#32)

/-- `x[rd] <- ADD(a, b, cin, uf)` (R142). -/
def State.addInto (s : State) (rd : Reg) (a b : Word) (cin uf : Bool) : State :=
  (s.setFlags (s.flags.add uf a b cin)).setReg rd (addResult a b cin)

/-- `x[rd] <- SUB(a, b, bin, uf)` (R143). -/
def State.subInto (s : State) (rd : Reg) (a b : Word) (bin uf : Bool) : State :=
  (s.setFlags (s.flags.sub uf a b bin)).setReg rd (subResult a b bin)

/-- `SUB(a, b, 0, 1)` with the result discarded: a compare (R181, R233, R297). -/
def State.compare (s : State) (a b : Word) : State := s.setFlags (s.flags.sub true a b false)

/-- `x[rd] <- NZ(v, uf)` (R145). -/
def State.nzInto (s : State) (rd : Reg) (v : Word) (uf : Bool) : State :=
  (s.setFlags (s.flags.nz uf v)).setReg rd v

/-- `x[rd] <- SHIFT(kind, a, amount, uf)` (R146). -/
def State.shiftInto (s : State) (rd : Reg) (kind : ShiftKind) (a amount : Word) (uf : Bool) : State :=
  (s.setFlags (s.flags.shift uf kind a amount)).setReg rd (shiftResult kind a amount)

/-- `x[rd] <- ROTC(kind, a, amount, uf)`; the input carry is C, whatever `uf` is (R147). -/
def State.rotateInto (s : State) (rd : Reg) (kind : RotateKind) (a amount : Word) (uf : Bool) : State :=
  (s.setFlags (s.flags.rotate uf kind a amount)).setReg rd (rotateResult kind a amount s.flags.c)

/-- A division's result into the CE pair; nothing for a divisor of 0 (R152 to R154). -/
def State.divideInto (s : State) : Option (Word × Word) → State
  | some (q, r) => s.setCe q r
  | none => s

/-- `x[rd] <- LD(op, ea)` (R260). -/
def State.load (s : State) (op : LoadOp) (rd : Reg) (ea : Word) : State :=
  let r := s.memRead ea op.width
  r.2.setReg rd (op.extend r.1)

/-- `ST(op, ea, d)` (R260). -/
def State.store (s : State) (op : StoreOp) (ea d : Word) : State := s.memWrite ea op.width d

/-- A post-increment load: the access at the old base, then `x[ra] <- base + off`, then `x[rd]`, so that the loaded
value wins when rd = ra (R262, R309, D43). -/
def State.loadPost (s : State) (op : LoadOp) (rd ra : Reg) (off : Word) : State :=
  let base := s.getReg ra
  let r := s.memRead base op.width
  (r.2.setReg ra (base + off)).setReg rd (op.extend r.1)

/-- A post-increment store: the old rd is stored at the old base, then `x[ra] <- base + off` (R262). -/
def State.storePost (s : State) (op : StoreOp) (rd ra : Reg) (off : Word) : State :=
  let base := s.getReg ra
  (s.memWrite base op.width (s.getReg rd)).setReg ra (base + off)

/-- A link: `x[3] <- v` (R22). -/
def State.link (s : State) (v : Word) : State := s.setReg Config.linkReg v

end Sys2Proof.Machine
end

