-- ==== Sys2Proof/Machine/Arith.lean ====
section
/-! DEFINITION. The meanings of the SP-Form add and subtract family (41_sp_form.md R177 to R182). Each is one line over
the operations of Ops, with the pc advanced by its delta (30_encoding.md R106). -/

namespace Sys2Proof.Machine

/-- `add`: add (R177). -/
def execAdd (rd ra rb : Reg) (cu : Bool) (s : State) : Result :=
  (s.addInto rd (s.getReg ra) (s.getReg rb) false cu).next4

/-- `addc`: add with carry; the carry-in is C before the instruction (R178). -/
def execAddc (rd ra rb : Reg) (cu : Bool) (s : State) : Result :=
  (s.addInto rd (s.getReg ra) (s.getReg rb) s.flags.c cu).next4

/-- `sub`: subtract (R179). -/
def execSub (rd ra rb : Reg) (cu : Bool) (s : State) : Result :=
  (s.subInto rd (s.getReg ra) (s.getReg rb) false cu).next4

/-- `subc`: subtract with carry (borrow = !C); the borrow-in is 1 - C (R180). -/
def execSubc (rd ra rb : Reg) (cu : Bool) (s : State) : Result :=
  (s.subInto rd (s.getReg ra) (s.getReg rb) (!s.flags.c) cu).next4

/-- `cmp`: compare; the flags are always written (R181). -/
def execCmp (ra rb : Reg) (s : State) : Result := (s.compare (s.getReg ra) (s.getReg rb)).next4

/-- `neg`: negate; SUB(0, x[rA], 0, CU) (R182). -/
def execNeg (rd ra : Reg) (cu : Bool) (s : State) : Result := (s.subInto rd 0#32 (s.getReg ra) false cu).next4

end Sys2Proof.Machine
end

