-- ==== Sys2Proof/Machine/Compressed.lean ====
section
/-! DEFINITION. The meanings of the 16-bit compressed instructions (45_compressed.md). Each is one line over the
operations of Ops, with the pc advanced by its delta (30_encoding.md R106). -/

namespace Sys2Proof.Machine

/-- `nop!`: no operation, compressed (R291). -/
def execNopC (s : State) : Result := s.next2

/-- `mv!`: register move; no flag is written (R292). -/
def execMvC (rd ra : Reg) (s : State) : Result := (s.setReg rd (s.getReg ra)).next2

/-- `br!`: jump to the address in rA (R293). -/
def execBrC (ra : Reg) (s : State) : Result := .next (s.jump (s.getReg ra))

/-- `brl!`: jump to the address in rA and link pc + 2 into r3; the target is read before the link is written (R294). -/
def execBrlC (ra : Reg) (s : State) : Result :=
  let t := s.getReg ra
  .next ((s.link (s.pc + 2#32)).jump t)

/-- `break!`: software breakpoint, cause 3; the saved pc is its own address (R295). -/
def execBreakC (s : State) : Result := .next (s.takeException Config.debugCause)

/-- `addi!`: add a small signed immediate (R296). -/
def execAddiC (rd : Reg) (imm5 : BitVec 5) (s : State) : Result :=
  (s.addInto rd (s.getReg rd) (simm5 imm5) false true).next2

/-- `cmpi!`: compare with a small signed immediate (R297). -/
def execCmpiC (rd : Reg) (imm5 : BitVec 5) (s : State) : Result := (s.compare (s.getReg rd) (simm5 imm5)).next2

/-- `andi!`: AND with a small unsigned immediate (R298). -/
def execAndiC (rd : Reg) (imm5 : BitVec 5) (s : State) : Result :=
  (s.nzInto rd (s.getReg rd &&& uimm5 imm5) true).next2

/-- `ori!`: OR with a small unsigned immediate (R299). -/
def execOriC (rd : Reg) (imm5 : BitVec 5) (s : State) : Result :=
  (s.nzInto rd (s.getReg rd ||| uimm5 imm5) true).next2

/-- `ldi!`: load a small signed immediate; no flag is written (R300). -/
def execLdiC (rd : Reg) (imm5 : BitVec 5) (s : State) : Result := (s.setReg rd (simm5 imm5)).next2

/-- `lw!`: load word, register-indirect (R301). -/
def execLwC (rd ra : Reg) (s : State) : Result := (s.load .lw rd (s.getReg ra)).next2

/-- `lh!`: load halfword, signed, register-indirect (R302). -/
def execLhC (rd ra : Reg) (s : State) : Result := (s.load .lh rd (s.getReg ra)).next2

/-- `lhu!`: load halfword, unsigned, register-indirect (R303). -/
def execLhuC (rd ra : Reg) (s : State) : Result := (s.load .lhu rd (s.getReg ra)).next2

/-- `lb!`: load byte, signed, register-indirect (R304). -/
def execLbC (rd ra : Reg) (s : State) : Result := (s.load .lb rd (s.getReg ra)).next2

/-- `sw!`: store word, register-indirect (R305). -/
def execSwC (rd ra : Reg) (s : State) : Result := (s.store .sw (s.getReg ra) (s.getReg rd)).next2

/-- `sh!`: store halfword, register-indirect (R306). -/
def execShC (rd ra : Reg) (s : State) : Result := (s.store .sh (s.getReg ra) (s.getReg rd)).next2

/-- `lbu!`: load byte, unsigned, register-indirect (R307). -/
def execLbuC (rd ra : Reg) (s : State) : Result := (s.load .lbu rd (s.getReg ra)).next2

/-- `sb!`: store byte, register-indirect (R308). -/
def execSbC (rd ra : Reg) (s : State) : Result := (s.store .sb (s.getReg ra) (s.getReg rd)).next2

/-- `pop!`: pop a word; the loaded value wins when rD = rA (R309). -/
def execPopC (rd ra : Reg) (s : State) : Result := (s.loadPost .lw rd ra 4#32).next2

/-- `push!`: push a word; a pre-decrement, rD read before the base is updated (R310). -/
def execPushC (rd ra : Reg) (s : State) : Result :=
  let a := s.getReg ra - 4#32
  ((s.store .sw a (s.getReg rd)).setReg ra a).next2

/-- `b_cond_2`: `b{cond}!`: compact conditional branch (R311). -/
def execBCondC (c : Cond) (disp8 : BitVec 8) (s : State) : Result :=
  if s.flags.cond c then .next (s.jump (bcTarget s.pc disp8)) else s.next2

/-- `slli!`: shift left logical by immediate (R312). -/
def execSlliC (rd : Reg) (imm5 : BitVec 5) (s : State) : Result :=
  (s.shiftInto rd .sll (s.getReg rd) (uimm5 imm5) true).next2

/-- `srli!`: shift right logical by immediate (R313). -/
def execSrliC (rd : Reg) (imm5 : BitVec 5) (s : State) : Result :=
  (s.shiftInto rd .srl (s.getReg rd) (uimm5 imm5) true).next2

/-- `srai!`: shift right arithmetic by immediate (R314). -/
def execSraiC (rd : Reg) (imm5 : BitVec 5) (s : State) : Result :=
  (s.shiftInto rd .sra (s.getReg rd) (uimm5 imm5) true).next2

/-- `rori!`: rotate right by immediate (R315). -/
def execRoriC (rd : Reg) (imm5 : BitVec 5) (s : State) : Result :=
  (s.shiftInto rd .ror (s.getReg rd) (uimm5 imm5) true).next2

/-- `roli!`: rotate left by immediate (R316). -/
def execRoliC (rd : Reg) (imm5 : BitVec 5) (s : State) : Result :=
  (s.shiftInto rd .rol (s.getReg rd) (uimm5 imm5) true).next2

/-- `extsb!`: sign-extend byte (R317). -/
def execExtsbC (rd ra : Reg) (s : State) : Result := (s.nzInto rd (extsbResult (s.getReg ra)) true).next2

/-- `extsh!`: sign-extend halfword (R318). -/
def execExtshC (rd ra : Reg) (s : State) : Result := (s.nzInto rd (extshResult (s.getReg ra)) true).next2

/-- `extzb!`: zero-extend byte (R319). -/
def execExtzbC (rd ra : Reg) (s : State) : Result := (s.nzInto rd (extzbResult (s.getReg ra)) true).next2

/-- `extzh!`: zero-extend halfword (R320). -/
def execExtzhC (rd ra : Reg) (s : State) : Result := (s.nzInto rd (extzhResult (s.getReg ra)) true).next2

/-- `lwp!`: load word, SP-relative (R321). -/
def execLwpC (rd : Reg) (imm7 : BitVec 7) (s : State) : Result :=
  (s.load .lw rd (s.getReg Config.spReg + spOffset imm7)).next2

/-- `swp!`: store word, SP-relative (R322). -/
def execSwpC (rd : Reg) (imm7 : BitVec 7) (s : State) : Result :=
  (s.store .sw (s.getReg Config.spReg + spOffset imm7) (s.getReg rd)).next2

end Sys2Proof.Machine
end

