-- ==== Sys2Proof/Machine/Control.lean ====
section
/-! DEFINITION. The meanings of the control and system instructions of SP-Form, J-Form and B-Form (41_sp_form.md R171
to R176, 43_j_b_form.md). Each is one line over the operations of Ops, with the pc advanced by its delta
(30_encoding.md R106). -/

namespace Sys2Proof.Machine

/-- `nop`: no operation (R171). -/
def execNop (s : State) : Result := s.next4

/-- `syscall`: system call, cause 1; the saved pc is its own address (R172). -/
def execSyscall (s : State) : Result := .next (s.takeException Config.syscallCause)

/-- `trap`: software trap, cause 2; unconditional (R173). -/
def execTrap (s : State) : Result := .next (s.takeException Config.trapCause)

/-- `sdbbp`: software debug breakpoint, cause 3; a guest exception through cr3 (R174). -/
def execSdbbp (s : State) : Result := .next (s.takeException Config.debugCause)

/-- `br`: jump to the address in rA; the target is not masked or aligned (R175). -/
def execBr (ra : Reg) (s : State) : Result := .next (s.jump (s.getReg ra))

/-- `brl`: jump to the address in rA and link pc + 4 into r3; the target is read before the link is written (R175). -/
def execBrl (ra : Reg) (s : State) : Result :=
  let t := s.getReg ra
  .next ((s.link (s.pc + 4#32)).jump t)

/-- `rte`: return from exception (R176). -/
def execRte (s : State) : Result := .next s.returnFromException

/-- `j`: unconditional jump (R250). -/
def execJ (disp24 : BitVec 24) (s : State) : Result := .next (s.jump (jTarget s.pc disp24))

/-- `jl`: jump and link pc + 4 into r3 (R251). -/
def execJl (disp24 : BitVec 24) (s : State) : Result := .next ((s.link (s.pc + 4#32)).jump (jTarget s.pc disp24))

/-- `b_cond`: `b{cond}`: conditional branch (R252). -/
def execBCond (c : Cond) (disp22 : BitVec 22) (s : State) : Result :=
  if s.flags.cond c then .next (s.jump (bTarget s.pc disp22)) else s.next4

/-- `b_cond_l`: `b{cond}l`: conditional branch and link; r3 is written only when the branch is taken (R253). -/
def execBCondL (c : Cond) (disp22 : BitVec 22) (s : State) : Result :=
  if s.flags.cond c then .next ((s.link (s.pc + 4#32)).jump (bTarget s.pc disp22)) else s.next4

end Sys2Proof.Machine
end

