-- ==== Sys2Proof/Machine/Immediate.lean ====
section
/-! DEFINITION. The meanings of the I-Form instructions (42_i_form.md). Each is one line over the operations of Ops,
with the pc advanced by its delta (30_encoding.md R106). -/

namespace Sys2Proof.Machine

/-- `addi`: add a sign-extended immediate (R231). -/
def execAddi (rd : Reg) (imm16 : BitVec 16) (cu : Bool) (s : State) : Result :=
  (s.addInto rd (s.getReg rd) (lowSimm imm16) false cu).next4

/-- `addis`: add an upper immediate (R232). -/
def execAddis (rd : Reg) (imm16 : BitVec 16) (cu : Bool) (s : State) : Result :=
  (s.addInto rd (s.getReg rd) (upperImm imm16) false cu).next4

/-- `cmpi`: compare with a sign-extended immediate; the flags are always written (R233). -/
def execCmpi (rd : Reg) (imm16 : BitVec 16) (s : State) : Result := (s.compare (s.getReg rd) (lowSimm imm16)).next4

/-- `cmpis`: compare with an upper immediate; the flags are always written (R234). -/
def execCmpis (rd : Reg) (imm16 : BitVec 16) (s : State) : Result := (s.compare (s.getReg rd) (upperImm imm16)).next4

/-- `andi`: AND with a zero-extended immediate (R235). -/
def execAndi (rd : Reg) (imm16 : BitVec 16) (cu : Bool) (s : State) : Result :=
  (s.nzInto rd (s.getReg rd &&& lowUimm imm16) cu).next4

/-- `andis`: AND with an upper immediate (R236). -/
def execAndis (rd : Reg) (imm16 : BitVec 16) (cu : Bool) (s : State) : Result :=
  (s.nzInto rd (s.getReg rd &&& upperImm imm16) cu).next4

/-- `ori`: OR with a zero-extended immediate (R237). -/
def execOri (rd : Reg) (imm16 : BitVec 16) (cu : Bool) (s : State) : Result :=
  (s.nzInto rd (s.getReg rd ||| lowUimm imm16) cu).next4

/-- `oris`: OR with an upper immediate (R238). -/
def execOris (rd : Reg) (imm16 : BitVec 16) (cu : Bool) (s : State) : Result :=
  (s.nzInto rd (s.getReg rd ||| upperImm imm16) cu).next4

/-- `ldi`: load a sign-extended immediate; no flag is written (R239). -/
def execLdi (rd : Reg) (imm16 : BitVec 16) (s : State) : Result := (s.setReg rd (lowSimm imm16)).next4

/-- `ldis`: load an upper immediate; no flag is written (R240). -/
def execLdis (rd : Reg) (imm16 : BitVec 16) (s : State) : Result := (s.setReg rd (upperImm imm16)).next4

end Sys2Proof.Machine
end

