-- ==== Sys2Proof/Machine/LoadStore.lean ====
section
/-! DEFINITION. The meanings of the loads and stores of SP-Form (41_sp_form.md R214 to R217), RIX-Form and Memory-Form
(44_rix_memory_form.md). Each is one line over the operations of Ops, with the pc advanced by its delta
(30_encoding.md R106). -/

namespace Sys2Proof.Machine

/-- `lcb`: load byte, zero-extended, from the address in rA (R214). -/
def execLcb (rd ra : Reg) (s : State) : Result := (s.load .lbu rd (s.getReg ra)).next4

/-- `lcw`: load word from the address in rA (R215). -/
def execLcw (rd ra : Reg) (s : State) : Result := (s.load .lw rd (s.getReg ra)).next4

/-- `scb`: store byte to the address in rA (R216). -/
def execScb (rd ra : Reg) (s : State) : Result := (s.store .sb (s.getReg ra) (s.getReg rd)).next4

/-- `scw`: store word to the address in rA (R217). -/
def execScw (rd ra : Reg) (s : State) : Result := (s.store .sw (s.getReg ra) (s.getReg rd)).next4

/-- `lw.rix`: load word, RIX base+offset (R264). -/
def execLwRix (rd ra : Reg) (imm12 : BitVec 12) (s : State) : Result :=
  (s.load .lw rd (s.getReg ra + rixOffset imm12)).next4

/-- `lh.rix`: load halfword, signed, RIX base+offset (R265). -/
def execLhRix (rd ra : Reg) (imm12 : BitVec 12) (s : State) : Result :=
  (s.load .lh rd (s.getReg ra + rixOffset imm12)).next4

/-- `lhu.rix`: load halfword, unsigned, RIX base+offset (R266). -/
def execLhuRix (rd ra : Reg) (imm12 : BitVec 12) (s : State) : Result :=
  (s.load .lhu rd (s.getReg ra + rixOffset imm12)).next4

/-- `lb.rix`: load byte, signed, RIX base+offset (R267). -/
def execLbRix (rd ra : Reg) (imm12 : BitVec 12) (s : State) : Result :=
  (s.load .lb rd (s.getReg ra + rixOffset imm12)).next4

/-- `sw.rix`: store word, RIX base+offset (R268). -/
def execSwRix (rd ra : Reg) (imm12 : BitVec 12) (s : State) : Result :=
  (s.store .sw (s.getReg ra + rixOffset imm12) (s.getReg rd)).next4

/-- `sh.rix`: store halfword, RIX base+offset (R269). -/
def execShRix (rd ra : Reg) (imm12 : BitVec 12) (s : State) : Result :=
  (s.store .sh (s.getReg ra + rixOffset imm12) (s.getReg rd)).next4

/-- `lbu.rix`: load byte, unsigned, RIX base+offset (R270). -/
def execLbuRix (rd ra : Reg) (imm12 : BitVec 12) (s : State) : Result :=
  (s.load .lbu rd (s.getReg ra + rixOffset imm12)).next4

/-- `sb.rix`: store byte, RIX base+offset (R271). -/
def execSbRix (rd ra : Reg) (imm12 : BitVec 12) (s : State) : Result :=
  (s.store .sb (s.getReg ra + rixOffset imm12) (s.getReg rd)).next4

/-- `lw.pi`: load word, RIX post-increment (R272). -/
def execLwPi (rd ra : Reg) (imm12 : BitVec 12) (s : State) : Result := (s.loadPost .lw rd ra (rixOffset imm12)).next4

/-- `lh.pi`: load halfword, signed, RIX post-increment (R273). -/
def execLhPi (rd ra : Reg) (imm12 : BitVec 12) (s : State) : Result := (s.loadPost .lh rd ra (rixOffset imm12)).next4

/-- `lhu.pi`: load halfword, unsigned, RIX post-increment (R274). -/
def execLhuPi (rd ra : Reg) (imm12 : BitVec 12) (s : State) : Result :=
  (s.loadPost .lhu rd ra (rixOffset imm12)).next4

/-- `lb.pi`: load byte, signed, RIX post-increment (R275). -/
def execLbPi (rd ra : Reg) (imm12 : BitVec 12) (s : State) : Result := (s.loadPost .lb rd ra (rixOffset imm12)).next4

/-- `sw.pi`: store word, RIX post-increment (R276). -/
def execSwPi (rd ra : Reg) (imm12 : BitVec 12) (s : State) : Result := (s.storePost .sw rd ra (rixOffset imm12)).next4

/-- `sh.pi`: store halfword, RIX post-increment (R277). -/
def execShPi (rd ra : Reg) (imm12 : BitVec 12) (s : State) : Result := (s.storePost .sh rd ra (rixOffset imm12)).next4

/-- `lbu.pi`: load byte, unsigned, RIX post-increment (R278). -/
def execLbuPi (rd ra : Reg) (imm12 : BitVec 12) (s : State) : Result :=
  (s.loadPost .lbu rd ra (rixOffset imm12)).next4

/-- `sb.pi`: store byte, RIX post-increment (R279). -/
def execSbPi (rd ra : Reg) (imm12 : BitVec 12) (s : State) : Result := (s.storePost .sb rd ra (rixOffset imm12)).next4

/-- `lw`: load word, Memory-Form (R280). -/
def execLw (rd ra : Reg) (imm15 : BitVec 15) (s : State) : Result :=
  (s.load .lw rd (s.getReg ra + memOffset imm15)).next4

/-- `lh`: load halfword, signed, Memory-Form (R281). -/
def execLh (rd ra : Reg) (imm15 : BitVec 15) (s : State) : Result :=
  (s.load .lh rd (s.getReg ra + memOffset imm15)).next4

/-- `lhu`: load halfword, unsigned, Memory-Form (R282). -/
def execLhu (rd ra : Reg) (imm15 : BitVec 15) (s : State) : Result :=
  (s.load .lhu rd (s.getReg ra + memOffset imm15)).next4

/-- `lb`: load byte, signed, Memory-Form (R283). -/
def execLb (rd ra : Reg) (imm15 : BitVec 15) (s : State) : Result :=
  (s.load .lb rd (s.getReg ra + memOffset imm15)).next4

/-- `sw`: store word, Memory-Form (R284). -/
def execSw (rd ra : Reg) (imm15 : BitVec 15) (s : State) : Result :=
  (s.store .sw (s.getReg ra + memOffset imm15) (s.getReg rd)).next4

/-- `sh`: store halfword, Memory-Form (R285). -/
def execSh (rd ra : Reg) (imm15 : BitVec 15) (s : State) : Result :=
  (s.store .sh (s.getReg ra + memOffset imm15) (s.getReg rd)).next4

/-- `lbu`: load byte, unsigned, Memory-Form (R286). -/
def execLbu (rd ra : Reg) (imm15 : BitVec 15) (s : State) : Result :=
  (s.load .lbu rd (s.getReg ra + memOffset imm15)).next4

/-- `sb`: store byte, Memory-Form (R287). -/
def execSb (rd ra : Reg) (imm15 : BitVec 15) (s : State) : Result :=
  (s.store .sb (s.getReg ra + memOffset imm15) (s.getReg rd)).next4

end Sys2Proof.Machine
end

