-- ==== Sys2Proof/Machine/Logic.lean ====
section
/-! DEFINITION. The meanings of the SP-Form logical, single-bit and extension instructions (41_sp_form.md R183 to R190,
R210 to R213). Each is one line over the operations of Ops, with the pc advanced by its delta (30_encoding.md
R106). -/

namespace Sys2Proof.Machine

/-- `and`: bitwise AND (R183). -/
def execAnd (rd ra rb : Reg) (cu : Bool) (s : State) : Result := (s.nzInto rd (s.getReg ra &&& s.getReg rb) cu).next4

/-- `or`: bitwise OR (R184). -/
def execOr (rd ra rb : Reg) (cu : Bool) (s : State) : Result := (s.nzInto rd (s.getReg ra ||| s.getReg rb) cu).next4

/-- `not`: bitwise complement (R185). -/
def execNot (rd ra : Reg) (cu : Bool) (s : State) : Result := (s.nzInto rd (~~~s.getReg ra) cu).next4

/-- `xor`: bitwise exclusive OR (R186). -/
def execXor (rd ra rb : Reg) (cu : Bool) (s : State) : Result := (s.nzInto rd (s.getReg ra ^^^ s.getReg rb) cu).next4

/-- `bitclr`: clear bit k (R187). -/
def execBitclr (rd ra : Reg) (k : BitVec 5) (cu : Bool) (s : State) : Result :=
  (s.nzInto rd (bitclrResult (s.getReg ra) k) cu).next4

/-- `bitset`: set bit k (R188). -/
def execBitset (rd ra : Reg) (k : BitVec 5) (cu : Bool) (s : State) : Result :=
  (s.nzInto rd (bitsetResult (s.getReg ra) k) cu).next4

/-- `bittst`: test bit k; T and Z are always written, N, C and V never (R189). -/
def execBittst (ra : Reg) (k : BitVec 5) (s : State) : Result := (s.setFlags (s.flags.bittst (s.getReg ra) k)).next4

/-- `bittgl`: toggle bit k (R190). -/
def execBittgl (rd ra : Reg) (k : BitVec 5) (cu : Bool) (s : State) : Result :=
  (s.nzInto rd (bittglResult (s.getReg ra) k) cu).next4

/-- `extsb`: sign-extend byte (R210). -/
def execExtsb (rd ra : Reg) (cu : Bool) (s : State) : Result := (s.nzInto rd (extsbResult (s.getReg ra)) cu).next4

/-- `extsh`: sign-extend halfword (R211). -/
def execExtsh (rd ra : Reg) (cu : Bool) (s : State) : Result := (s.nzInto rd (extshResult (s.getReg ra)) cu).next4

/-- `extzb`: zero-extend byte (R212). -/
def execExtzb (rd ra : Reg) (cu : Bool) (s : State) : Result := (s.nzInto rd (extzbResult (s.getReg ra)) cu).next4

/-- `extzh`: zero-extend halfword (R213). -/
def execExtzh (rd ra : Reg) (cu : Bool) (s : State) : Result := (s.nzInto rd (extzhResult (s.getReg ra)) cu).next4

end Sys2Proof.Machine
end

