-- ==== Sys2Proof/Machine/MulDiv.lean ====
section
/-! DEFINITION. The meanings of multiply, divide and the custom-engine moves (41_sp_form.md R198 to R203). Each is one
line over the operations of Ops, with the pc advanced by its delta (30_encoding.md R106). -/

namespace Sys2Proof.Machine

/-- `mul`: signed multiply, 64-bit product; CEL and CEH receive the product, no flag changes (R198). -/
def execMul (ra rb : Reg) (s : State) : Result :=
  let p := mulPair (s.getReg ra) (s.getReg rb)
  (s.setCe p.1 p.2).next4

/-- `mulu`: unsigned multiply, 64-bit product; CEL and CEH receive the product, no flag changes (R199). -/
def execMulu (ra rb : Reg) (s : State) : Result :=
  let p := muluPair (s.getReg ra) (s.getReg rb)
  (s.setCe p.1 p.2).next4

/-- `div`: signed divide; CEL receives the quotient and CEH the remainder; a divisor of 0 changes nothing (R200). -/
def execDiv (ra rb : Reg) (s : State) : Result := (s.divideInto (divPair (s.getReg ra) (s.getReg rb))).next4

/-- `divu`: unsigned divide; CEL receives the quotient and CEH the remainder; a divisor of 0 changes nothing (R201). -/
def execDivu (ra rb : Reg) (s : State) : Result := (s.divideInto (divuPair (s.getReg ra) (s.getReg rb))).next4

/-- `mfcel`: move from CEL (R202). -/
def execMfcel (rd : Reg) (s : State) : Result := (s.setReg rd s.cel).next4

/-- `mfceh`: move from CEH (R202). -/
def execMfceh (rd : Reg) (s : State) : Result := (s.setReg rd s.ceh).next4

/-- `mfcehl`: move from CEH (to rD) and CEL (to rA); with rD = rA the register receives CEL (R202). -/
def execMfcehl (rd ra : Reg) (s : State) : Result := ((s.setReg rd s.ceh).setReg ra s.cel).next4

/-- `mtcel`: move to CEL (R203). -/
def execMtcel (rd : Reg) (s : State) : Result := (s.setCe (s.getReg rd) s.ceh).next4

/-- `mtceh`: move to CEH (R203). -/
def execMtceh (rd : Reg) (s : State) : Result := (s.setCe s.cel (s.getReg rd)).next4

/-- `mtcehl`: move to CEH (from rD) and CEL (from rA) (R203). -/
def execMtcehl (rd ra : Reg) (s : State) : Result := (s.setCe (s.getReg ra) (s.getReg rd)).next4

end Sys2Proof.Machine
end

