-- ==== Sys2Proof/Machine/Shift.lean ====
section
/-! DEFINITION. The meanings of the SP-Form shifts and rotates, by register and by immediate (41_sp_form.md R191 to
R197, R218 to R224). Each is one line over the operations of Ops, with the pc advanced by its delta (30_encoding.md
R106). -/

namespace Sys2Proof.Machine

/-- `sll`: shift left logical; the amount is x[rB] & 31 (R191). -/
def execSll (rd ra rb : Reg) (cu : Bool) (s : State) : Result :=
  (s.shiftInto rd .sll (s.getReg ra) (s.getReg rb) cu).next4

/-- `srl`: shift right logical; the amount is x[rB] & 31 (R192). -/
def execSrl (rd ra rb : Reg) (cu : Bool) (s : State) : Result :=
  (s.shiftInto rd .srl (s.getReg ra) (s.getReg rb) cu).next4

/-- `sra`: shift right arithmetic; the amount is x[rB] & 31 (R193). -/
def execSra (rd ra rb : Reg) (cu : Bool) (s : State) : Result :=
  (s.shiftInto rd .sra (s.getReg ra) (s.getReg rb) cu).next4

/-- `ror`: rotate right; the amount is x[rB] & 31 (R194). -/
def execRor (rd ra rb : Reg) (cu : Bool) (s : State) : Result :=
  (s.shiftInto rd .ror (s.getReg ra) (s.getReg rb) cu).next4

/-- `rorc`: rotate right through carry; the amount is x[rB] & 31, C is read whatever CU is (R195). -/
def execRorc (rd ra rb : Reg) (cu : Bool) (s : State) : Result :=
  (s.rotateInto rd .rorc (s.getReg ra) (s.getReg rb) cu).next4

/-- `rol`: rotate left; the amount is x[rB] & 31 (R196). -/
def execRol (rd ra rb : Reg) (cu : Bool) (s : State) : Result :=
  (s.shiftInto rd .rol (s.getReg ra) (s.getReg rb) cu).next4

/-- `rolc`: rotate left through carry; the amount is x[rB] & 31, C is read whatever CU is (R197). -/
def execRolc (rd ra rb : Reg) (cu : Bool) (s : State) : Result :=
  (s.rotateInto rd .rolc (s.getReg ra) (s.getReg rb) cu).next4

/-- `slli`: shift left logical by immediate (R218). -/
def execSlli (rd ra : Reg) (imm5 : BitVec 5) (cu : Bool) (s : State) : Result :=
  (s.shiftInto rd .sll (s.getReg ra) (uimm5 imm5) cu).next4

/-- `srli`: shift right logical by immediate (R219). -/
def execSrli (rd ra : Reg) (imm5 : BitVec 5) (cu : Bool) (s : State) : Result :=
  (s.shiftInto rd .srl (s.getReg ra) (uimm5 imm5) cu).next4

/-- `srai`: shift right arithmetic by immediate (R220). -/
def execSrai (rd ra : Reg) (imm5 : BitVec 5) (cu : Bool) (s : State) : Result :=
  (s.shiftInto rd .sra (s.getReg ra) (uimm5 imm5) cu).next4

/-- `rori`: rotate right by immediate (R221). -/
def execRori (rd ra : Reg) (imm5 : BitVec 5) (cu : Bool) (s : State) : Result :=
  (s.shiftInto rd .ror (s.getReg ra) (uimm5 imm5) cu).next4

/-- `roric`: rotate right through carry by immediate; C is read whatever CU is (R222). -/
def execRoric (rd ra : Reg) (imm5 : BitVec 5) (cu : Bool) (s : State) : Result :=
  (s.rotateInto rd .rorc (s.getReg ra) (uimm5 imm5) cu).next4

/-- `roli`: rotate left by immediate (R223). -/
def execRoli (rd ra : Reg) (imm5 : BitVec 5) (cu : Bool) (s : State) : Result :=
  (s.shiftInto rd .rol (s.getReg ra) (uimm5 imm5) cu).next4

/-- `rolic`: rotate left through carry by immediate; C is read whatever CU is (R224). -/
def execRolic (rd ra : Reg) (imm5 : BitVec 5) (cu : Bool) (s : State) : Result :=
  (s.rotateInto rd .rolc (s.getReg ra) (uimm5 imm5) cu).next4

end Sys2Proof.Machine
end

