-- ==== Sys2Proof/Machine/Special.lean ====
section
/-! DEFINITION. The meanings of the control and system register moves and the conditional operations (41_sp_form.md
R204 to R209). Each is one line over the operations of Ops, with the pc advanced by its delta (30_encoding.md
R106). -/

namespace Sys2Proof.Machine

/-- `mfcr`: move from control register n (R204). -/
def execMfcr (rd : Reg) (n : SpecialIdx) (s : State) : Result := (s.setReg rd (s.getCr n)).next4

/-- `mtcr`: move to control register n; all 32 bits are written (R205). -/
def execMtcr (rd : Reg) (n : SpecialIdx) (s : State) : Result := (s.setCr n (s.getReg rd)).next4

/-- `mfsr`: move from system register n; sr0 reads as `pack()` (R206). -/
def execMfsr (rd : Reg) (n : SpecialIdx) (s : State) : Result := (s.setReg rd (s.getSr n)).next4

/-- `mtsr`: move to system register n; a write to sr0 unpacks into the flags (R207). -/
def execMtsr (rd : Reg) (n : SpecialIdx) (s : State) : Result := (s.setSr n (s.getReg rd)).next4

/-- `t_cond`: `t{cond}`: set T from a condition; no other flag changes (R208). -/
def execTCond (c : Cond) (s : State) : Result := (s.setFlags { s.flags with t := s.flags.cond c }).next4

/-- `mv_cond`: `mv{cond}`: conditional move (R209). -/
def execMvCond (c : Cond) (rd ra : Reg) (s : State) : Result :=
  (if s.flags.cond c then s.setReg rd (s.getReg ra) else s).next4

end Sys2Proof.Machine
end

