-- ==== Sys2Proof/Machine/Dispatch.lean ====
section
/-! DEFINITION. The dispatch: one arm per constructor of `Instr`, each one direct call of the instruction's meaning. -/

namespace Sys2Proof.Machine

def exec (i : Instr) (s : State) : Host.Outcome State Fault Refusal :=
  match i with
  | .nop => Sys2Proof.Machine.execNop s
  | .syscall => Sys2Proof.Machine.execSyscall s
  | .trap => Sys2Proof.Machine.execTrap s
  | .sdbbp => Sys2Proof.Machine.execSdbbp s
  | .br ra => Sys2Proof.Machine.execBr ra s
  | .brl ra => Sys2Proof.Machine.execBrl ra s
  | .rte => Sys2Proof.Machine.execRte s
  | .add rd ra rb cu => Sys2Proof.Machine.execAdd rd ra rb cu s
  | .addc rd ra rb cu => Sys2Proof.Machine.execAddc rd ra rb cu s
  | .sub rd ra rb cu => Sys2Proof.Machine.execSub rd ra rb cu s
  | .subc rd ra rb cu => Sys2Proof.Machine.execSubc rd ra rb cu s
  | .cmp ra rb => Sys2Proof.Machine.execCmp ra rb s
  | .neg rd ra cu => Sys2Proof.Machine.execNeg rd ra cu s
  | .and rd ra rb cu => Sys2Proof.Machine.execAnd rd ra rb cu s
  | .or rd ra rb cu => Sys2Proof.Machine.execOr rd ra rb cu s
  | .not rd ra cu => Sys2Proof.Machine.execNot rd ra cu s
  | .xor rd ra rb cu => Sys2Proof.Machine.execXor rd ra rb cu s
  | .bitclr rd ra k cu => Sys2Proof.Machine.execBitclr rd ra k cu s
  | .bitset rd ra k cu => Sys2Proof.Machine.execBitset rd ra k cu s
  | .bittst ra k => Sys2Proof.Machine.execBittst ra k s
  | .bittgl rd ra k cu => Sys2Proof.Machine.execBittgl rd ra k cu s
  | .sll rd ra rb cu => Sys2Proof.Machine.execSll rd ra rb cu s
  | .srl rd ra rb cu => Sys2Proof.Machine.execSrl rd ra rb cu s
  | .sra rd ra rb cu => Sys2Proof.Machine.execSra rd ra rb cu s
  | .ror rd ra rb cu => Sys2Proof.Machine.execRor rd ra rb cu s
  | .rorc rd ra rb cu => Sys2Proof.Machine.execRorc rd ra rb cu s
  | .rol rd ra rb cu => Sys2Proof.Machine.execRol rd ra rb cu s
  | .rolc rd ra rb cu => Sys2Proof.Machine.execRolc rd ra rb cu s
  | .mul ra rb => Sys2Proof.Machine.execMul ra rb s
  | .mulu ra rb => Sys2Proof.Machine.execMulu ra rb s
  | .div ra rb => Sys2Proof.Machine.execDiv ra rb s
  | .divu ra rb => Sys2Proof.Machine.execDivu ra rb s
  | .mfcel rd => Sys2Proof.Machine.execMfcel rd s
  | .mfceh rd => Sys2Proof.Machine.execMfceh rd s
  | .mfcehl rd ra => Sys2Proof.Machine.execMfcehl rd ra s
  | .mtcel rd => Sys2Proof.Machine.execMtcel rd s
  | .mtceh rd => Sys2Proof.Machine.execMtceh rd s
  | .mtcehl rd ra => Sys2Proof.Machine.execMtcehl rd ra s
  | .mfcr rd n => Sys2Proof.Machine.execMfcr rd n s
  | .mtcr rd n => Sys2Proof.Machine.execMtcr rd n s
  | .mfsr rd n => Sys2Proof.Machine.execMfsr rd n s
  | .mtsr rd n => Sys2Proof.Machine.execMtsr rd n s
  | .tCond c => Sys2Proof.Machine.execTCond c s
  | .mvCond c rd ra => Sys2Proof.Machine.execMvCond c rd ra s
  | .extsb rd ra cu => Sys2Proof.Machine.execExtsb rd ra cu s
  | .extsh rd ra cu => Sys2Proof.Machine.execExtsh rd ra cu s
  | .extzb rd ra cu => Sys2Proof.Machine.execExtzb rd ra cu s
  | .extzh rd ra cu => Sys2Proof.Machine.execExtzh rd ra cu s
  | .lcb rd ra => Sys2Proof.Machine.execLcb rd ra s
  | .lcw rd ra => Sys2Proof.Machine.execLcw rd ra s
  | .scb rd ra => Sys2Proof.Machine.execScb rd ra s
  | .scw rd ra => Sys2Proof.Machine.execScw rd ra s
  | .slli rd ra imm5 cu => Sys2Proof.Machine.execSlli rd ra imm5 cu s
  | .srli rd ra imm5 cu => Sys2Proof.Machine.execSrli rd ra imm5 cu s
  | .srai rd ra imm5 cu => Sys2Proof.Machine.execSrai rd ra imm5 cu s
  | .rori rd ra imm5 cu => Sys2Proof.Machine.execRori rd ra imm5 cu s
  | .roric rd ra imm5 cu => Sys2Proof.Machine.execRoric rd ra imm5 cu s
  | .roli rd ra imm5 cu => Sys2Proof.Machine.execRoli rd ra imm5 cu s
  | .rolic rd ra imm5 cu => Sys2Proof.Machine.execRolic rd ra imm5 cu s
  | .addi rd imm16 cu => Sys2Proof.Machine.execAddi rd imm16 cu s
  | .addis rd imm16 cu => Sys2Proof.Machine.execAddis rd imm16 cu s
  | .cmpi rd imm16 => Sys2Proof.Machine.execCmpi rd imm16 s
  | .cmpis rd imm16 => Sys2Proof.Machine.execCmpis rd imm16 s
  | .andi rd imm16 cu => Sys2Proof.Machine.execAndi rd imm16 cu s
  | .andis rd imm16 cu => Sys2Proof.Machine.execAndis rd imm16 cu s
  | .ori rd imm16 cu => Sys2Proof.Machine.execOri rd imm16 cu s
  | .oris rd imm16 cu => Sys2Proof.Machine.execOris rd imm16 cu s
  | .ldi rd imm16 => Sys2Proof.Machine.execLdi rd imm16 s
  | .ldis rd imm16 => Sys2Proof.Machine.execLdis rd imm16 s
  | .j disp24 => Sys2Proof.Machine.execJ disp24 s
  | .jl disp24 => Sys2Proof.Machine.execJl disp24 s
  | .bCond c disp22 => Sys2Proof.Machine.execBCond c disp22 s
  | .bCondL c disp22 => Sys2Proof.Machine.execBCondL c disp22 s
  | .lwRix rd ra imm12 => Sys2Proof.Machine.execLwRix rd ra imm12 s
  | .lhRix rd ra imm12 => Sys2Proof.Machine.execLhRix rd ra imm12 s
  | .lhuRix rd ra imm12 => Sys2Proof.Machine.execLhuRix rd ra imm12 s
  | .lbRix rd ra imm12 => Sys2Proof.Machine.execLbRix rd ra imm12 s
  | .swRix rd ra imm12 => Sys2Proof.Machine.execSwRix rd ra imm12 s
  | .shRix rd ra imm12 => Sys2Proof.Machine.execShRix rd ra imm12 s
  | .lbuRix rd ra imm12 => Sys2Proof.Machine.execLbuRix rd ra imm12 s
  | .sbRix rd ra imm12 => Sys2Proof.Machine.execSbRix rd ra imm12 s
  | .lwPi rd ra imm12 => Sys2Proof.Machine.execLwPi rd ra imm12 s
  | .lhPi rd ra imm12 => Sys2Proof.Machine.execLhPi rd ra imm12 s
  | .lhuPi rd ra imm12 => Sys2Proof.Machine.execLhuPi rd ra imm12 s
  | .lbPi rd ra imm12 => Sys2Proof.Machine.execLbPi rd ra imm12 s
  | .swPi rd ra imm12 => Sys2Proof.Machine.execSwPi rd ra imm12 s
  | .shPi rd ra imm12 => Sys2Proof.Machine.execShPi rd ra imm12 s
  | .lbuPi rd ra imm12 => Sys2Proof.Machine.execLbuPi rd ra imm12 s
  | .sbPi rd ra imm12 => Sys2Proof.Machine.execSbPi rd ra imm12 s
  | .lw rd ra imm15 => Sys2Proof.Machine.execLw rd ra imm15 s
  | .lh rd ra imm15 => Sys2Proof.Machine.execLh rd ra imm15 s
  | .lhu rd ra imm15 => Sys2Proof.Machine.execLhu rd ra imm15 s
  | .lb rd ra imm15 => Sys2Proof.Machine.execLb rd ra imm15 s
  | .sw rd ra imm15 => Sys2Proof.Machine.execSw rd ra imm15 s
  | .sh rd ra imm15 => Sys2Proof.Machine.execSh rd ra imm15 s
  | .lbu rd ra imm15 => Sys2Proof.Machine.execLbu rd ra imm15 s
  | .sb rd ra imm15 => Sys2Proof.Machine.execSb rd ra imm15 s
  | .nopC => Sys2Proof.Machine.execNopC s
  | .mvC rd ra => Sys2Proof.Machine.execMvC rd ra s
  | .brC ra => Sys2Proof.Machine.execBrC ra s
  | .brlC ra => Sys2Proof.Machine.execBrlC ra s
  | .breakC => Sys2Proof.Machine.execBreakC s
  | .addiC rd imm5 => Sys2Proof.Machine.execAddiC rd imm5 s
  | .cmpiC rd imm5 => Sys2Proof.Machine.execCmpiC rd imm5 s
  | .andiC rd imm5 => Sys2Proof.Machine.execAndiC rd imm5 s
  | .oriC rd imm5 => Sys2Proof.Machine.execOriC rd imm5 s
  | .ldiC rd imm5 => Sys2Proof.Machine.execLdiC rd imm5 s
  | .lwC rd ra => Sys2Proof.Machine.execLwC rd ra s
  | .lhC rd ra => Sys2Proof.Machine.execLhC rd ra s
  | .lhuC rd ra => Sys2Proof.Machine.execLhuC rd ra s
  | .lbC rd ra => Sys2Proof.Machine.execLbC rd ra s
  | .swC rd ra => Sys2Proof.Machine.execSwC rd ra s
  | .shC rd ra => Sys2Proof.Machine.execShC rd ra s
  | .lbuC rd ra => Sys2Proof.Machine.execLbuC rd ra s
  | .sbC rd ra => Sys2Proof.Machine.execSbC rd ra s
  | .popC rd ra => Sys2Proof.Machine.execPopC rd ra s
  | .pushC rd ra => Sys2Proof.Machine.execPushC rd ra s
  | .bCondC c disp8 => Sys2Proof.Machine.execBCondC c disp8 s
  | .slliC rd imm5 => Sys2Proof.Machine.execSlliC rd imm5 s
  | .srliC rd imm5 => Sys2Proof.Machine.execSrliC rd imm5 s
  | .sraiC rd imm5 => Sys2Proof.Machine.execSraiC rd imm5 s
  | .roriC rd imm5 => Sys2Proof.Machine.execRoriC rd imm5 s
  | .roliC rd imm5 => Sys2Proof.Machine.execRoliC rd imm5 s
  | .extsbC rd ra => Sys2Proof.Machine.execExtsbC rd ra s
  | .extshC rd ra => Sys2Proof.Machine.execExtshC rd ra s
  | .extzbC rd ra => Sys2Proof.Machine.execExtzbC rd ra s
  | .extzhC rd ra => Sys2Proof.Machine.execExtzhC rd ra s
  | .lwpC rd imm7 => Sys2Proof.Machine.execLwpC rd imm7 s
  | .swpC rd imm7 => Sys2Proof.Machine.execSwpC rd imm7 s

end Sys2Proof.Machine
end

