-- ==== Sys2Proof/Machine/Cycle.lean ====
section
/-! DEFINITION. The instruction cycle: one call of `step()` (spec 30_encoding.md R100), its fetch (R101), the StepFault
(60_exceptions.md R350), the retirement of an executed instruction (R100 item 9), and what the call returns (R18). -/

namespace Sys2Proof.Machine

/-- `fetchable(pc)`: the segment is bound to a dense region and four bytes lie inside it (R101, D28). -/
def State.fetchable (s : State) (pc : Word) : Bool :=
  match s.region pc with
  | .dense d => decide (offsetOf pc + 4 ≤ d.size)
  | _ => false

/-- The four bytes a fetch at `pc` reads: `MemRead(pc, 4)` as memory holds it (R101). -/
def State.fetchBytes (s : State) (pc : Word) : List Byte := bytesOfWord (s.memRead pc .word).1

/-- A StepFault: `fault_count` grows, and past FAULT_LIMIT the CPU halts; nothing else changes (R350, R351). -/
def State.stepFault (s : State) : State :=
  { s with faultCount := s.faultCount + 1, halted := s.halted || decide (Config.faultLimit < s.faultCount + 1) }

/-- Item 9 of R100: the bookkeeping of a step that executed an instruction; the counters wrap modulo 2^64 (R39, D56). -/
def State.retire (s : State) : State :=
  { s with faultCount := 0, cycles := s.cycles + 1#64, instructions := s.instructions + 1#64 }

/-- A breakpoint at pc (R44, R361). -/
def State.atBreakpoint (s : State) : Bool := s.breakpoints.contains s.pc.toNat

/-- The illegal-fetch exception (R336): neither a StepFault nor a retired step. -/
def State.illegalFetch (s : State) : State := s.takeException Config.illegalFetchCause

/-- Items 6 to 9 of R100: fetch, decode, execute, and retire or StepFault. -/
def State.runInstruction (s : State) : Result :=
  match decodeBytes (s.fetchBytes s.pc) with
  | .error _ => .next s.stepFault
  | .ok i =>
    match exec i s with
    | .next t => .next t.retire
    | .fault f => .fault f
    | .refused r => .refused r

/-- One call of `step()`: the items of R100 in their order, the first that applies ending the step. A call that
returns false is a next state like one that returns true; `stepReturn` says which (log entry 3). -/
def State.cycle (s : State) : Result :=
  if !s.initialized then .fault .notInitialized
  else if s.halted || s.paused then .next s
  else if !s.miuAttached then .next s.stepFault
  else if !s.fetchable s.pc then .next s.illegalFetch
  else if s.atBreakpoint then .next { s with paused := true }
  else s.runInstruction

/-- The debugger's step with the breakpoint check turned off (R362, D36): the same items without item 5; the breakpoint
set is kept. -/
def State.cycleUnchecked (s : State) : Result :=
  match ({ s with breakpoints := [] } : State).cycle with
  | .next t => .next { t with breakpoints := s.breakpoints }
  | .fault f => .fault f
  | .refused r => .refused r

/-- What a call of `step()` returns (R18). -/
inductive StepReturn where
  /-- `Error(NotInitialized)` -/
  | notInitialized
  /-- `false`: halted or paused, a StepFault, an illegal fetch, or a breakpoint pause -/
  | returnsFalse
  /-- `true`: an instruction was executed -/
  | returnsTrue
deriving DecidableEq, Repr

/-- What the next call of `step()` returns (R18, R100). -/
def State.stepReturn (s : State) : StepReturn :=
  if !s.initialized then .notInitialized
  else if s.halted || s.paused || !s.miuAttached || !s.fetchable s.pc || s.atBreakpoint then .returnsFalse
  else
    match decodeBytes (s.fetchBytes s.pc) with
    | .error _ => .returnsFalse
    | .ok _ => .returnsTrue

/-- A fetch word stored by the host where the next step fetches, when pc is fetchable (log entry 4). -/
def State.placeFetchWord (s : State) (w : Word) : State :=
  match s.region s.pc with
  | .dense d => if offsetOf s.pc + 4 ≤ d.size then s.loadBytes d (offsetOf s.pc) (bytesOfWord w) else s
  | _ => s

end Sys2Proof.Machine
end

