-- ==== Sys2Proof/Machine/Step.lean ====
section
/-! DEFINITION. The step function, and the state with an instruction placed where the step fetches. -/

namespace Sys2Proof.Machine

/-- One step: one call of the spec's `step()` (30_encoding.md R100). -/
def step (s : State) : Host.Outcome State Fault Refusal := s.cycle

/-- The state with the opcode-table instruction of `nbits` bits `w` stored where `step` fetches its next instruction;
a 16-bit row is followed by the halfword that lets it be decoded as compressed (log entry 4). -/
def State.withFetchWord (s : State) (nbits w : Nat) : State := s.placeFetchWord (tableFetchWord nbits w)

end Sys2Proof.Machine
end

