-- ==== Sys2Proof/Machine/HostEvents.lean ====
section
/-! DEFINITION. The host's controls of the CORE, which happen between steps and never inside one (spec 00_scope.md R4(h),
R17, 70_reset_and_hazards.md R386): interrupts, interrupt enables, initialise, attach, breakpoints, resume, DMA, loads,
the register setters, and the setup calls. `step` performs none of them by itself. -/

namespace Sys2Proof.Machine

/-- The host events. -/
inductive HostEvent where
  /-- `INTC.trigger(irq)` (R340) -/
  | trigger (irq : Int)
  /-- `enableIRQ(i)` (R341) -/
  | enableIrq (i : BitVec 5)
  /-- `disableIRQ(i)` (R341) -/
  | disableIrq (i : BitVec 5)
  /-- the INTC's connect call (R45, R370 item 5) -/
  | connectCpu
  /-- the INTC's reset (R373). THE MODEL'S CHOICE: it keeps the host's `blocked` counter, which R373 does not name (log
  entry 13) -/
  | resetIntc
  /-- the CPU's reset: the CPU alone constructed again (R374, R370 item 3) -/
  | constructCpu
  /-- `initializeCPU`, with or without a memory interface (R42, R353, R374) -/
  | initializeCpu (withInterface : Bool)
  /-- the memory interface attached again (R43) -/
  | attachMiu
  /-- the memory interface detached (R43) -/
  | detachMiu
  /-- a breakpoint added (R44, R361) -/
  | setBreakpoint (a : Word)
  /-- a breakpoint removed (R44, R362) -/
  | clearBreakpoint (a : Word)
  /-- resume from halt (R352) -/
  | resumeHalted
  /-- resume from a breakpoint pause (R362) -/
  | resumePaused
  /-- a DMA write, with the CPU's own write primitive (R89) -/
  | dmaWrite (a : Word) (w : Width) (v : Word)
  /-- a host load into a dense region: the firmware image, or a media load (R371, R386) -/
  | loadImage (d : Dense) (off : Nat) (bytes : List Byte)
  /-- `setRegion`, during setup or reset only (R46, R62, R91; log entry 20) -/
  | setRegion (seg : BitVec 8) (r : Region)
  /-- the setter of a general register (R44) -/
  | setGpr (r : Reg) (v : Word)
  /-- the setter of a system register (R44) -/
  | setSysReg (n : SpecialIdx) (v : Word)
  /-- the setter of a control register (R44) -/
  | setCtlReg (n : SpecialIdx) (v : Word)
  /-- the setter of pc (R44) -/
  | setPc (v : Word)
  /-- the setter of CEL (R44) -/
  | setCel (v : Word)
  /-- the setter of CEH (R44) -/
  | setCeh (v : Word)
  /-- the setter of the flags (R44) -/
  | setFlags (f : Flags)
deriving DecidableEq, Repr

/-- The state with its INTC replaced. -/
def State.setIntc (s : State) (c : Intc) : State := { s with intc := c }

/-- A refused trigger, counted for the host's diagnostics (R45, R340). -/
def State.countBlocked (s : State) : State := s.setIntc { s.intc with blocked := s.intc.blocked + 1 }

/-- The word with bit `i` set. -/
def withBitSet (w : Word) (i : Nat) : Word := w ||| (1#32 <<< i)

/-- The word with bit `i` clear. -/
def withBitClear (w : Word) (i : Nat) : Word := w &&& ~~~(1#32 <<< i)

/-- `INTC.trigger(irq)`: a line outside 0 to 31 is only counted; the STATUS bit is set whatever the mask; the exception
is taken when the line is enabled and a CPU is connected, in every run state (R340, R344). -/
def State.trigger (s : State) (irq : Int) : State :=
  if 0 ≤ irq ∧ irq < (Config.numIrq : Int) then
    let i := irq.toNat
    let s1 := s.setIntc { s.intc with status := withBitSet s.intc.status i }
    if s.intc.mask.getLsbD i && s.intc.cpuConnected then s1.takeException (BitVec.ofNat 8 i)
    else s1.countBlocked
  else s.countBlocked

/-- A number put into a strictly rising list, once. -/
def insertRising (k : Nat) : List Nat → List Nat
  | [] => [k]
  | k' :: rest => if k < k' then k :: k' :: rest else if k = k' then k :: rest else k' :: insertRising k rest

/-- Strictly rising. -/
def strictlyRising : List Nat → Bool
  | [] => true
  | k :: rest => rest.all (fun k' => decide (k < k')) && strictlyRising rest

/-- `initializeCPU`: with an interface it sets `initialized` and `miu_attached` and changes nothing else, the second
time too; without one it fails and leaves the state (R42, R353, R370, R374). -/
def State.initializeCpu (s : State) (withInterface : Bool) : Result :=
  if withInterface then .next { s with initialized := true, miuAttached := true } else .fault .notInitialized

/-- The CPU constructed again (R374, R370 item 3): every piece of the CPU's own state (registers, pc, flags, CE,
counters, run control, breakpoints) is as constructed, `initialized` among them, so that `initializeCPU` must follow. The
MIU and the INTC are not the CPU's: the segment table, the bytes of the dense regions and the INTC are kept. THE MODEL'S
CHOICE: `cpu_connected` is kept with the INTC (log entry 21). -/
def State.constructCpu (s : State) : State :=
  { State.constructed with intc := s.intc, segments := s.segments, mem := s.mem, draws := s.draws }

/-- `setRegion`: the segment's earlier binding is replaced, during setup or reset only, which is while the CPU is not
initialized (R17, R46, R62, R91; log entry 20). -/
def State.setRegion (s : State) (seg : BitVec 8) (r : Region) : Result :=
  if s.initialized then .refused .rebindAfterSetup
  else .next { s with segments := s.segments.set seg.toNat r }

/-- The INTC's reset: INT_MASK all ones, INT_STATUS and INT_PRIO 0, `cpu_connected` kept (R373). THE MODEL'S CHOICE: the
`blocked` counter, which R373 and D60 do not name, is kept (log entry 13). -/
def Intc.reset (c : Intc) : Intc := { c with mask := 0xFFFFFFFF#32, status := 0#32, prio := 0#32 }

/-- The state after a host event. -/
def hostEvent (e : HostEvent) (s : State) : Result :=
  match e with
  | .trigger irq => .next (s.trigger irq)
  | .enableIrq i => .next (s.setIntc { s.intc with mask := withBitSet s.intc.mask i.toNat })
  | .disableIrq i => .next (s.setIntc { s.intc with mask := withBitClear s.intc.mask i.toNat })
  | .connectCpu => .next (s.setIntc { s.intc with cpuConnected := true })
  | .resetIntc => .next (s.setIntc s.intc.reset)
  | .constructCpu => .next s.constructCpu
  | .initializeCpu w => s.initializeCpu w
  | .attachMiu => .next { s with miuAttached := true }
  | .detachMiu => .next { s with miuAttached := false }
  | .setBreakpoint a => .next { s with breakpoints := insertRising a.toNat s.breakpoints }
  | .clearBreakpoint a => .next { s with breakpoints := s.breakpoints.filter (fun k => k != a.toNat) }
  | .resumeHalted => .next { s with halted := false, faultCount := 0 }
  | .resumePaused => .next { s with paused := false }
  | .dmaWrite a w v => .next (s.memWrite a w v)
  | .loadImage d off bytes =>
    if off + bytes.length ≤ d.size then .next (s.loadBytes d off bytes) else .refused .imageTooLarge
  | .setRegion seg r => s.setRegion seg r
  | .setGpr r v => .next (s.setReg r v)
  | .setSysReg n v => .next (s.setSr n v)
  | .setCtlReg n v => .next (s.setCr n v)
  | .setPc v => .next (s.jump v)
  | .setCel v => .next (s.setCe v s.ceh)
  | .setCeh v => .next (s.setCe s.cel v)
  | .setFlags f => .next (s.setFlags f)

end Sys2Proof.Machine
end

