-- ==== Sys2Proof/Safety.lean ====
section
/-! DEFINITION. What the claims about runs are stated in: the well-formed states, the running states, and a run as a
sequence of steps with host events between them (spec 70_reset_and_hazards.md R386). -/

namespace Sys2Proof.Machine

/-- The well-formed states: the stored lists are in their canonical form, memory holds bytes of dense regions only, the
fault breaker's relation of R41 and R351 holds, and the two counters agree (R357). -/
structure State.Inv (s : State) : Prop where
  /-- memory is in canonical form -/
  mem_wf : s.mem.wf = true
  /-- every listed byte belongs to DRAM or FLASH (R47, R76) -/
  mem_dense : ∀ cell ∈ s.mem, Dense.holdsKey cell.1 = true
  /-- the segment table is in canonical form -/
  segments_wf : Cells.wf Region.sink s.segments = true
  /-- the segment table binds the 256 segments only (R46) -/
  segments_bound : ∀ entry ∈ s.segments, entry.1 < 256
  /-- the breakpoints are a set of addresses (R44) -/
  breakpoints_rising : strictlyRising s.breakpoints = true
  /-- fault_count never exceeds FAULT_LIMIT + 1 (R41) -/
  fault_count_le : s.faultCount ≤ Config.faultLimit + 1
  /-- the CPU is halted exactly when the breaker has fired (R40, R351) -/
  halted_iff : s.halted = true ↔ s.faultCount = Config.faultLimit + 1
  /-- `cycles` and `instructions` are equal (R357) -/
  counters_eq : s.cycles = s.instructions

/-- The states in which a step gets as far as the fetch (R100 items 1 to 3 do not apply). -/
def State.running (s : State) : Bool := s.initialized && !s.halted && !s.paused && s.miuAttached

/-- What happens next to the machine: a step, or a host event (R386). -/
inductive Event where
  /-- a call of `step()` -/
  | step
  /-- the debugger's step with the breakpoint check turned off (R362) -/
  | stepUnchecked
  /-- a host event between two steps -/
  | host (e : HostEvent)
deriving DecidableEq, Repr

/-- The machine after one event. -/
def Event.apply (e : Event) (s : State) : Result :=
  match e with
  | .step => Machine.step s
  | .stepUnchecked => s.cycleUnchecked
  | .host h => hostEvent h s

/-- The machine after a sequence of events, stopping at the first stop. -/
def runEvents : List Event → State → Result
  | [], s => .next s
  | e :: es, s =>
    match e.apply s with
    | .next t => runEvents es t
    | .fault f => .fault f
    | .refused r => .refused r

end Sys2Proof.Machine
end

