-- ==== Sys2Proof/Certificates/Slice0/Obligations.lean ====
section
/-! DEFINITION. The statements for the provers, each `def Obligations.<Name> : Prop`, and first the words they are
written in: what completes, what an effect writes, and what it leaves (the frames). -/

namespace Sys2Proof.Machine

/-! ## The words of the statements -/

/-- `r` is a next state, and `P` holds of it. -/
def Completes (r : Result) (P : State → Prop) : Prop := ∃ t, r = .next t ∧ P t

/-- Every general register but `rd` is as before; `rd` holds `v`, and if `rd` is r0 the write is discarded. -/
def WroteReg (s t : State) (rd : Reg) (v : Word) : Prop :=
  ∀ r, t.getReg r = if r = rd ∧ r ≠ 0#5 then v else s.getReg r

/-- Every general register is as before. -/
def SameRegs (s t : State) : Prop := ∀ r, t.getReg r = s.getReg r

/-- The system registers sr1 to sr31 are as before (sr0 is the flag view). -/
def SameSr (s t : State) : Prop := ∀ n, n ≠ 0#5 → t.getSr n = s.getSr n

/-- The control registers are as before. -/
def SameCr (s t : State) : Prop := ∀ n, t.getCr n = s.getCr n

/-- CEL and CEH are as before. -/
def SameCe (s t : State) : Prop := t.cel = s.cel ∧ t.ceh = s.ceh

/-- The counters, the run-control state, the breakpoints and the segment table are as before. -/
structure SameRun (s t : State) : Prop where
  /-- `cycles` -/
  cycles : t.cycles = s.cycles
  /-- `instructions` -/
  instructions : t.instructions = s.instructions
  /-- `halted` -/
  halted : t.halted = s.halted
  /-- `fault_count` -/
  faultCount : t.faultCount = s.faultCount
  /-- `initialized` -/
  initialized : t.initialized = s.initialized
  /-- `miu_attached` -/
  miuAttached : t.miuAttached = s.miuAttached
  /-- `paused` -/
  paused : t.paused = s.paused
  /-- the breakpoint set -/
  breakpoints : t.breakpoints = s.breakpoints
  /-- the segment table -/
  segments : t.segments = s.segments

/-- Every byte of memory and the INTC are as before; the third clause says it through the model's read of one byte. -/
structure SameMemory (s t : State) : Prop where
  /-- the dense regions -/
  mem : t.mem = s.mem
  /-- the INTC -/
  intc : t.intc = s.intc
  /-- every address reads as before -/
  bytes : ∀ a, t.peekByte a = s.peekByte a

/-- Nothing changed but general registers, flags and pc. -/
structure OnlyCore (s t : State) : Prop where
  /-- sr1 to sr31 -/
  sr : SameSr s t
  /-- cr0 to cr31 -/
  cr : SameCr s t
  /-- CEL and CEH -/
  ce : SameCe s t
  /-- counters and run control -/
  run : SameRun s t
  /-- memory and the INTC -/
  memory : SameMemory s t
  /-- no peripheral was read -/
  draws : t.draws = s.draws

/-- An ALU instruction's whole effect: `rd` receives `v`, the flags become `f`, pc moves by `delta`, nothing else. -/
def AluEffect (r : Result) (s : State) (rd : Reg) (v : Word) (f : Flags) (delta : Word) : Prop :=
  Completes r fun t => WroteReg s t rd v ∧ t.flags = f ∧ t.pc = s.pc + delta ∧ OnlyCore s t

/-- The whole effect of an instruction that writes flags only. -/
def FlagEffect (r : Result) (s : State) (f : Flags) (delta : Word) : Prop :=
  Completes r fun t => SameRegs s t ∧ t.flags = f ∧ t.pc = s.pc + delta ∧ OnlyCore s t

/-- The whole effect of a jump: pc is the target, `link` is written to r3 if there is one. -/
def JumpEffect (r : Result) (s : State) (target : Word) (link : Option Word) : Prop :=
  Completes r fun t =>
    (match link with
      | none => SameRegs s t
      | some v => WroteReg s t 3#5 v) ∧ t.flags = s.flags ∧ t.pc = target ∧ OnlyCore s t

/-- An exact integer is outside the signed range of a word. -/
def outOfRange (x : Int) : Bool := decide (x < -2 ^ 31 ∨ 2 ^ 31 ≤ x)

/-- The flags of the exact unsigned sum a + b + cin: C is its carry out, V its signed overflow. -/
def sumFlags (f : Flags) (uf : Bool) (a b : Word) (cin : Bool) : Flags :=
  let exact := a.toNat + b.toNat + cin.toNat
  let res := BitVec.ofNat 32 exact
  if uf then
    ⟨res.msb, res == 0#32, decide (2 ^ 32 ≤ exact), outOfRange (a.toInt + b.toInt + cin.toNat), f.t⟩
  else f

/-- The flags of the exact difference a - b - bin: C is no-borrow, V signed overflow. -/
def differenceFlags (f : Flags) (uf : Bool) (a b : Word) (bin : Bool) : Flags :=
  let res := BitVec.ofInt 32 ((a.toNat : Int) - b.toNat - bin.toNat)
  if uf then
    ⟨res.msb, res == 0#32, decide (b.toNat + bin.toNat ≤ a.toNat), outOfRange (a.toInt - b.toInt - bin.toNat), f.t⟩
  else f

/-- N and Z of a result, the other flags kept. -/
def resultFlags (f : Flags) (uf : Bool) (res : Word) : Flags :=
  if uf then { f with n := res.msb, z := res == 0#32 } else f

/-- N and Z of a shift's result, and C when the amount is not 0. -/
def shiftedFlags (f : Flags) (uf : Bool) (res : Word) (n : Nat) (carry : Bool) : Flags :=
  if uf then { f with n := res.msb, z := res == 0#32, c := if n = 0 then f.c else carry } else f

/-- A signed immediate as a word. -/
def signedWord {n : Nat} (imm : BitVec n) : Word := BitVec.ofInt 32 imm.toInt

/-- The effect of a plain load: `rd` receives `v`; flags, memory, the INTC and every other register are kept. -/
def LoadEffect (r : Result) (s : State) (rd : Reg) (v : Word) (delta : Word) : Prop :=
  Completes r fun t =>
    WroteReg s t rd v ∧ t.flags = s.flags ∧ t.pc = s.pc + delta ∧ SameSr s t ∧ SameCr s t ∧ SameCe s t ∧ SameRun s t
      ∧ SameMemory s t ∧ (t.draws = s.draws ∨ t.draws = s.draws + 1)

/-- The effect of a post-increment load: the base `ra` receives `base'`, then `rd` receives `v`, which wins. -/
def LoadPostEffect (r : Result) (s : State) (rd ra : Reg) (v base' : Word) (delta : Word) : Prop :=
  Completes r fun t =>
    (∀ q, t.getReg q =
        if q = 0#5 then 0#32 else if q = rd then v else if q = ra then base' else s.getReg q)
      ∧ t.flags = s.flags ∧ t.pc = s.pc + delta ∧ SameSr s t ∧ SameCr s t ∧ SameCe s t ∧ SameRun s t ∧ SameMemory s t
      ∧ (t.draws = s.draws ∨ t.draws = s.draws + 1)

/-- The word, the sign-extended or zero-extended halfword, and byte, that a read at `ea` gives (R260). -/
def loadWord (s : State) (ea : Word) : Word := (s.memRead ea .word).1
/-- The sign-extended halfword at `ea`. -/
def loadHalfSigned (s : State) (ea : Word) : Word := BitVec.ofInt 32 ((s.memRead ea .half).1.setWidth 16).toInt
/-- The zero-extended halfword at `ea`. -/
def loadHalfUnsigned (s : State) (ea : Word) : Word := BitVec.ofNat 32 ((s.memRead ea .half).1.toNat % 2 ^ 16)
/-- The sign-extended byte at `ea`. -/
def loadByteSigned (s : State) (ea : Word) : Word := BitVec.ofInt 32 ((s.memRead ea .byte).1.setWidth 8).toInt
/-- The zero-extended byte at `ea`. -/
def loadByteUnsigned (s : State) (ea : Word) : Word := BitVec.ofNat 32 ((s.memRead ea .byte).1.toNat % 2 ^ 8)

/-- `b` is the address of one of the `n` bytes that an access at `ea` covers: same region, offset inside. -/
def Covers (s : State) (ea : Word) (n : Nat) (b : Word) : Prop :=
  s.region b = s.region ea ∧ offsetOf ea ≤ offsetOf b ∧ offsetOf b < offsetOf ea + n

/-- What a store of the `n` low bytes of `d` at offset `off` of the MMIO segment does to the INTC (R80, R81), bit by bit:
a covered byte of INT_MASK (offsets 0 to 3) or INT_PRIO (4 to 7) is replaced, INT_STATUS (8 to 11) ignores the store, a
bit set in a covered byte of INT_ACK (12 to 15) clears the same bit of INT_STATUS; every other bit is kept. That a store
which begins at 13 to 15 and runs past offset 15 acts so on its bytes inside is the model's reading (log entry 6). -/
structure IntcStored (c c' : Intc) (off n : Nat) (d : Word) : Prop where
  /-- INT_MASK -/
  mask : ∀ i < 32, c'.mask.getLsbD i =
    if off ≤ i / 8 ∧ i / 8 < off + n then d.getLsbD (i - 8 * off) else c.mask.getLsbD i
  /-- INT_PRIO -/
  prio : ∀ i < 32, c'.prio.getLsbD i =
    if off ≤ 4 + i / 8 ∧ 4 + i / 8 < off + n then d.getLsbD (32 + i - 8 * off) else c.prio.getLsbD i
  /-- INT_STATUS, cleared through INT_ACK -/
  status : ∀ i < 32, c'.status.getLsbD i =
    (c.status.getLsbD i &&
      !(decide (off ≤ 12 + i / 8 ∧ 12 + i / 8 < off + n) && d.getLsbD (96 + i - 8 * off)))
  /-- whether the CPU is connected -/
  cpuConnected : c'.cpuConnected = c.cpuConnected
  /-- the blocked counter -/
  blocked : c'.blocked = c.blocked

/-- What a store of the `n` low bytes of `d` at `ea` does to memory and the INTC (R67 to R70, R80, R81; past offset 15 of
the INTC's segment, log entry 6). -/
structure Stored (s t : State) (ea : Word) (n : Nat) (d : Word) : Prop where
  /-- in DRAM and in bounds, byte k of `d` is stored at `ea + k` -/
  inside : s.region ea = .dense .dram → offsetOf ea + n ≤ Config.dramSize →
    ∀ k < n, t.peekByte (ea + BitVec.ofNat 32 k) = some ((d >>> (8 * k)).setWidth 8)
  /-- out of the bounds of DRAM, no byte is stored -/
  out_of_bounds : s.region ea = .dense .dram → Config.dramSize < offsetOf ea + n → SameMemory s t
  /-- FLASH, the sink and the CD-ROM controller keep memory and the INTC as they are -/
  dropped : s.region ea = .dense .flash ∨ s.region ea = .sink ∨ s.region ea = .cdrom → SameMemory s t
  /-- a store outside the MMIO segment leaves the INTC -/
  intc : s.region ea ≠ .mmio → t.intc = s.intc
  /-- a store into the MMIO segment leaves the dense regions and writes the INTC's covered bytes -/
  mmio : s.region ea = .mmio → t.mem = s.mem ∧ IntcStored s.intc t.intc (offsetOf ea) n d
  /-- every byte the store does not cover reads as before; in the MMIO segment the clause `mmio` says it bit by bit -/
  outside : ∀ b, ¬ Covers s ea n b → s.region b ≠ .mmio → t.peekByte b = s.peekByte b

/-- The effect of a plain store of the `n` low bytes of `d` at `ea`. -/
def StoreEffect (r : Result) (s : State) (ea : Word) (n : Nat) (d : Word) (delta : Word) : Prop :=
  Completes r fun t =>
    SameRegs s t ∧ t.flags = s.flags ∧ t.pc = s.pc + delta ∧ SameSr s t ∧ SameCr s t ∧ SameCe s t ∧ SameRun s t
      ∧ t.draws = s.draws ∧ Stored s t ea n d

/-- The effect of a store that also writes `base'` to its base register `ra`. -/
def StoreBaseEffect (r : Result) (s : State) (ra : Reg) (base' ea : Word) (n : Nat) (d : Word) (delta : Word) : Prop :=
  Completes r fun t =>
    WroteReg s t ra base' ∧ t.flags = s.flags ∧ t.pc = s.pc + delta ∧ SameSr s t ∧ SameCr s t ∧ SameCe s t
      ∧ SameRun s t ∧ t.draws = s.draws ∧ Stored s t ea n d

/-- The effect of taking the exception `cause` at the state `s`: what R330 says is saved and where pc goes. -/
structure Entered (s t : State) (cause : BitVec 8) : Prop where
  /-- cr1 receives the packed flags -/
  saved_flags : t.getCr 1#5 = s.flags.pack
  /-- cr2[23:18] receives the low six bits of the cause, the other bits are kept -/
  saved_cause : ∀ i < 32, (t.getCr 2#5).getLsbD i =
    if 18 ≤ i ∧ i < 24 then cause.getLsbD (i - 18) else (s.getCr 2#5).getLsbD i
  /-- cr5 receives the pc -/
  saved_pc : t.getCr 5#5 = s.pc
  /-- cr0 bit 0 is cleared, the other bits are kept -/
  enable_cleared : ∀ i < 32, (t.getCr 0#5).getLsbD i = (decide (i ≠ 0) && (s.getCr 0#5).getLsbD i)
  /-- no other control register changes -/
  other_cr : ∀ n, n ≠ 0#5 → n ≠ 1#5 → n ≠ 2#5 → n ≠ 5#5 → t.getCr n = s.getCr n
  /-- pc is the vector: cr3 plus four times the full cause, modulo 2^32 -/
  vector : t.pc = BitVec.ofNat 32 ((s.getCr 3#5).toNat + 4 * cause.toNat)
  /-- no flag changes -/
  flags : t.flags = s.flags
  /-- no general register changes -/
  regs : SameRegs s t
  /-- no system register changes -/
  sr : SameSr s t
  /-- CEL and CEH are kept -/
  ce : SameCe s t
  /-- counters and run control are kept -/
  run : SameRun s t
  /-- no byte of memory changes -/
  mem : t.mem = s.mem
  /-- no peripheral was read -/
  draws : t.draws = s.draws

/-- The value of bit `k` of a register. -/
def bitOf (v : Word) (k : BitVec 5) : Bool := v.getLsbD k.toNat

end Sys2Proof.Machine

open Sys2Proof Sys2Proof.Machine

/-! ## Decoding and encoding -/

/-- Decode and encode agree: every well-formed instruction decodes from its code; a compressed one from its halfword
followed by any halfword with bit 14 set (R104). -/
def Obligations.DecodeOfEncode : Prop :=
  ∀ (i : Instr) (next : Half), i.wellFormed = true → ((encode i).size = 2 → next.getLsbD 14 = true) →
    decode ((encode i).fetched next) = .ok i

/-- The bits of an SP-Form word that its code ignores: bits 26:25 and 9:7 always (R110), and of rD (24:20), rA (19:15),
the field 14:10 and CU (bit 0) those that the instruction of the code does not use (R125, R170 and the rule of the
instruction). -/
def Sys2Proof.Machine.spIgnoredBits (w : Word) : Word :=
  let rd : Word := 0x01F00000#32
  let ra : Word := 0x000F8000#32
  let rb : Word := 0x00007C00#32
  let cu : Word := 0x00000001#32
  let sel := field w 10 2
  let f := field w 1 6
  0x06000380#32 |||
    (if f ∈ [0x00#6, 0x01#6, 0x02#6, 0x03#6, 0x06#6] then rd ||| ra ||| rb ||| cu
    else if f = 0x04#6 then rd ||| rb
    else if f ∈ [0x0C#6, 0x16#6, 0x20#6, 0x21#6, 0x22#6, 0x23#6] then rd ||| cu
    else if f ∈ [0x0F#6, 0x12#6, 0x2C#6, 0x2D#6, 0x2E#6, 0x2F#6] then rb
    else if f ∈ [0x24#6, 0x25#6] then 0x00007000#32 ||| cu ||| (if sel = 1#2 ∨ sel = 2#2 then ra else 0#32)
    else if f ∈ [0x26#6, 0x27#6, 0x28#6, 0x29#6] then ra ||| cu
    else if f = 0x2A#6 then rd ||| ra ||| 0x00004000#32 ||| cu
    else if f = 0x2B#6 then 0x00004000#32 ||| cu
    else if f ∈ [0x30#6, 0x31#6, 0x34#6, 0x35#6] then rb ||| cu
    else 0#32)

/-- The bits of a fetched word that its encoding ignores: of a compressed one, bit 31 and bits 29:16, which belong to what
follows it (R104), and the register fields that the codes of table 0x4 do not use (R291, R293 to R295); of B-Form none; of
I-Form bits 26:25, and CU of the compares and load-immediates (R233, R234, R239, R240); of SP-Form `spIgnoredBits`; of
every other 32-bit word bits 26:25 (R112, R114, R115, and opcode 0x06, which R103 reserves whole). -/
def Sys2Proof.Machine.ignoredBits (w : Word) : Word :=
  let op := field w 27 5
  if w.getLsbD 30 then
    0xBFFF0000#32 |||
      (if field w 12 4 = 0x4#4 then
        (if field w 0 4 ∈ [0#4, 4#4] then 0x00000FF0#32 else if field w 0 4 ∈ [2#4, 3#4] then 0x00000F00#32 else 0#32)
      else 0#32)
  else if op = 0x00#5 then spIgnoredBits w
  else if op = 0x04#5 then 0#32
  else if op ∈ [0x01#5, 0x05#5] ∧ field w 17 3 ∈ [2#3, 6#3] then 0x06000001#32
  else 0x06000000#32

/-- Ignored bits do not matter (R137): words that differ only in bits that their encoding ignores decode alike. The ignored
bits, `ignoredBits`, are those of R104, R110 to R115 and R125 and those of the fields that an instruction's rule does not
use. Rests on the spec's own decisions D2, D47. -/
def Obligations.IgnoredBitsDoNotMatter : Prop :=
  ∀ w x : Word, x &&& ~~~ignoredBits w = 0#32 → decode (w ^^^ x) = decode w

/-- Whether and how a compressed instruction decodes: with w[30] = 1 the word decodes by its low halfword alone, and the
instruction it decodes to is 2 bytes long; with w[30] = 0 it is 4 bytes long (R104, R138). -/
def Obligations.LengthIsBit30 : Prop :=
  ∀ (w : Word) (i : Instr), decode w = .ok i →
    (encode i).size = (if w.getLsbD 30 then 2 else 4)
      ∧ (w.getLsbD 30 = true → ∀ w' : Word, w'.getLsbD 30 = true → w'.setWidth 16 = w.setWidth 16 →
          decode w' = .ok i)

/-- The decoder rejects exactly the reserved encodings of R103, R136 and R323 and decodes every other word: opcode 0x06;
of SP-Form the listed func6 codes and the custom-engine selector 00; I-Form func3 001, 011 and 111; a compressed halfword
whose bit 14 is 0, of table 0x5, or of a listed code of tables 0x4, 0x6, 0x7, 0xD and 0xE. -/
def Obligations.RejectedWordsAreTheReserved : Prop :=
  ∀ w : Word, (∃ e, decode w = .error e) ↔
    (field w 27 5 = 0x06#5
      ∨ (field w 27 5 = 0x00#5 ∧
          field w 1 6 ∈ [0x05#6, 0x07#6, 0x0D#6, 0x0E#6, 0x19#6, 0x32#6, 0x33#6, 0x36#6, 0x37#6, 0x39#6])
      ∨ (field w 27 5 = 0x00#5 ∧ field w 1 6 ∈ [0x24#6, 0x25#6] ∧ field w 10 2 = 0#2)
      ∨ (field w 27 5 ∈ [0x01#5, 0x05#5] ∧ field w 17 3 ∈ [1#3, 3#3, 7#3])
      ∨ (w.getLsbD 30 = true ∧
          (w.getLsbD 14 = false
            ∨ field w 12 4 = 0x5#4
            ∨ (field w 12 4 = 0x4#4 ∧ 5 ≤ (field w 0 4).toNat)
            ∨ (field w 12 4 = 0x7#4 ∧ 10 ≤ (field w 0 4).toNat)
            ∨ (field w 12 4 = 0xE#4 ∧ 4 ≤ (field w 0 4).toNat)
            ∨ (field w 12 4 ∈ [0x6#4, 0xD#4] ∧ 5 ≤ (field w 5 3).toNat))))

/-- Words of the spec's own examples decode to the instructions they stand for (R177, R231, R251, R252, R264, R272,
R280, R202, R310). -/
def Obligations.ExampleWordsDecode : Prop :=
  decode 0x00308811#32 = .ok (.add 3#5 1#5 2#5 true)
    ∧ decode 0x0841FFFF#32 = .ok (.addi 4#5 0xFFFF#16 true)
    ∧ decode 0x10000101#32 = .ok (.jl 0x80#24)
    ∧ decode 0x20000808#32 = .ok (.bCond .eq 4#22)
    ∧ decode 0x18408020#32 = .ok (.lwRix 4#5 1#5 4#12)
    ∧ decode 0x38408020#32 = .ok (.lwPi 4#5 1#5 4#12)
    ∧ decode 0x8040FFF0#32 = .ok (.lw 4#5 1#5 0x7FF0#15)
    ∧ decode 0x00428C48#32 = .ok (.mfcehl 4#5 5#5)
    ∧ decode 0x40007429#32 = .ok (.pushC 4#5 2#5)

/-! ## Add, subtract and compare -/

/-- `add`, `addc`, `addi`, `addis`, `addi!`: the exact sum modulo 2^32, its carry and its signed overflow. The 32-bit
forms write flags when CU is 1, `addi!` always. Rests on the spec's own decisions D7, D13, D23. -/
def Obligations.AdditionsComputeTheSum : Prop :=
  ∀ (rd ra rb : Reg) (imm16 : BitVec 16) (imm5 : BitVec 5) (cu : Bool) (s : State),
    let a := s.getReg ra
    let b := s.getReg rb
    let d := s.getReg rd
    let sum := fun (x y : Word) (cin : Bool) => BitVec.ofNat 32 (x.toNat + y.toNat + cin.toNat)
    let upper := BitVec.ofNat 32 (imm16.toNat * 2 ^ 16)
    AluEffect (exec (.add rd ra rb cu) s) s rd (sum a b false) (sumFlags s.flags cu a b false) 4
      ∧ AluEffect (exec (.addc rd ra rb cu) s) s rd (sum a b s.flags.c) (sumFlags s.flags cu a b s.flags.c) 4
      ∧ AluEffect (exec (.addi rd imm16 cu) s) s rd (sum d (signedWord imm16) false)
          (sumFlags s.flags cu d (signedWord imm16) false) 4
      ∧ AluEffect (exec (.addis rd imm16 cu) s) s rd (sum d upper false) (sumFlags s.flags cu d upper false) 4
      ∧ AluEffect (exec (.addiC rd imm5) s) s rd (sum d (signedWord imm5) false)
          (sumFlags s.flags true d (signedWord imm5) false) 2

/-- `sub`, `subc`, `neg`: the exact difference modulo 2^32, C as no-borrow, V as signed overflow; `subc` borrows 1 - C.
Rests on the spec's own decisions D4, D23. -/
def Obligations.SubtractionsComputeTheDifference : Prop :=
  ∀ (rd ra rb : Reg) (cu : Bool) (s : State),
    let a := s.getReg ra
    let b := s.getReg rb
    let diff := fun (x y : Word) (bin : Bool) => BitVec.ofInt 32 ((x.toNat : Int) - y.toNat - bin.toNat)
    AluEffect (exec (.sub rd ra rb cu) s) s rd (diff a b false) (differenceFlags s.flags cu a b false) 4
      ∧ AluEffect (exec (.subc rd ra rb cu) s) s rd (diff a b (!s.flags.c))
          (differenceFlags s.flags cu a b (!s.flags.c)) 4
      ∧ AluEffect (exec (.neg rd ra cu) s) s rd (diff 0#32 a false) (differenceFlags s.flags cu 0#32 a false) 4

/-- `cmp`, `cmpi`, `cmpis`, `cmpi!` write the flags of the difference, always, and no register. Rests on the spec's own
decisions D7, D13, D26. -/
def Obligations.ComparesWriteFlagsOnly : Prop :=
  ∀ (rd ra rb : Reg) (imm16 : BitVec 16) (imm5 : BitVec 5) (s : State),
    let d := s.getReg rd
    FlagEffect (exec (.cmp ra rb) s) s (differenceFlags s.flags true (s.getReg ra) (s.getReg rb) false) 4
      ∧ FlagEffect (exec (.cmpi rd imm16) s) s (differenceFlags s.flags true d (signedWord imm16) false) 4
      ∧ FlagEffect (exec (.cmpis rd imm16) s) s
          (differenceFlags s.flags true d (BitVec.ofNat 32 (imm16.toNat * 2 ^ 16)) false) 4
      ∧ FlagEffect (exec (.cmpiC rd imm5) s) s (differenceFlags s.flags true d (signedWord imm5) false) 2

/-- Reading the conditions after a compare of a against b: unsigned hi, cs, cc, ls and signed gt, ge, lt, le are the
order of the two words, eq and ne their equality (R161, which the spec derives from R143 and R160). -/
def Obligations.ConditionsOrderAfterCompare : Prop :=
  ∀ (ra rb : Reg) (s t : State), exec (.cmp ra rb) s = .next t →
    let a := s.getReg ra
    let b := s.getReg rb
    (t.flags.cond .eq = true ↔ a = b) ∧ (t.flags.cond .ne = true ↔ a ≠ b)
      ∧ (t.flags.cond .hi = true ↔ b.toNat < a.toNat) ∧ (t.flags.cond .cs = true ↔ b.toNat ≤ a.toNat)
      ∧ (t.flags.cond .cc = true ↔ a.toNat < b.toNat) ∧ (t.flags.cond .ls = true ↔ a.toNat ≤ b.toNat)
      ∧ (t.flags.cond .gt = true ↔ b.toInt < a.toInt) ∧ (t.flags.cond .ge = true ↔ b.toInt ≤ a.toInt)
      ∧ (t.flags.cond .lt = true ↔ a.toInt < b.toInt) ∧ (t.flags.cond .le = true ↔ a.toInt ≤ b.toInt)

/-- The truth table of the sixteen conditions, and the laws that the odd code negates the even one before it (R160,
R162). Rests on the spec's own decision D10. -/
def Obligations.ConditionTruthTable : Prop :=
  ∀ n z c v t : Bool,
    let f : Flags := ⟨n, z, c, v, t⟩
    f.cond (.ofCode 0#4) = c ∧ f.cond (.ofCode 1#4) = !c ∧ f.cond (.ofCode 2#4) = (c && !z)
      ∧ f.cond (.ofCode 3#4) = (!c || z) ∧ f.cond (.ofCode 4#4) = z ∧ f.cond (.ofCode 5#4) = !z
      ∧ f.cond (.ofCode 6#4) = (!z && n == v) ∧ f.cond (.ofCode 7#4) = (z || n != v)
      ∧ f.cond (.ofCode 8#4) = (n == v) ∧ f.cond (.ofCode 9#4) = (n != v) ∧ f.cond (.ofCode 10#4) = n
      ∧ f.cond (.ofCode 11#4) = !n ∧ f.cond (.ofCode 12#4) = v ∧ f.cond (.ofCode 13#4) = !v
      ∧ f.cond (.ofCode 14#4) = t ∧ f.cond (.ofCode 15#4) = true
      ∧ (∀ k : BitVec 3, k ≠ 7#3 →
          f.cond (.ofCode (k.setWidth 4 * 2#4 + 1#4)) = !f.cond (.ofCode (k.setWidth 4 * 2#4)))

/-! ## Logical, bit, extension and immediate-load instructions -/

/-- The logical instructions, in register and immediate form: the result, N and Z of it, C, V and T kept. Rests on the
spec's own decisions D7, D13, D25. -/
def Obligations.LogicalResults : Prop :=
  ∀ (rd ra rb : Reg) (imm16 : BitVec 16) (imm5 : BitVec 5) (cu : Bool) (s : State),
    let a := s.getReg ra
    let b := s.getReg rb
    let d := s.getReg rd
    let low := BitVec.ofNat 32 imm16.toNat
    let upper := BitVec.ofNat 32 (imm16.toNat * 2 ^ 16)
    let small := BitVec.ofNat 32 imm5.toNat
    let nz := fun (r : Result) (v : Word) (uf : Bool) (delta : Word) =>
      AluEffect r s rd v (resultFlags s.flags uf v) delta
    nz (exec (.and rd ra rb cu) s) (a &&& b) cu 4
      ∧ nz (exec (.or rd ra rb cu) s) (a ||| b) cu 4
      ∧ nz (exec (.xor rd ra rb cu) s) (a ^^^ b) cu 4
      ∧ nz (exec (.not rd ra cu) s) (~~~a) cu 4
      ∧ nz (exec (.andi rd imm16 cu) s) (d &&& low) cu 4
      ∧ nz (exec (.andis rd imm16 cu) s) (d &&& upper) cu 4
      ∧ nz (exec (.ori rd imm16 cu) s) (d ||| low) cu 4
      ∧ nz (exec (.oris rd imm16 cu) s) (d ||| upper) cu 4
      ∧ nz (exec (.andiC rd imm5) s) (d &&& small) true 2
      ∧ nz (exec (.oriC rd imm5) s) (d ||| small) true 2

/-- `bitclr`, `bitset`, `bittgl`: bit k of the result is 0, 1, or the inverse of bit k of x[rA], every other bit is that
of x[rA]; N and Z of the result when CU is 1. `bittst` writes T with the bit and Z with its inverse, always, and nothing
else. Rests on the spec's own decisions D4, D26. -/
def Obligations.SingleBitResults : Prop :=
  ∀ (rd ra : Reg) (k : BitVec 5) (cu : Bool) (s : State),
    let a := s.getReg ra
    let is := fun (r : Result) (bit : Bool) =>
      ∃ v : Word, (∀ i < 32, v.getLsbD i = if i = k.toNat then bit else a.getLsbD i)
        ∧ AluEffect r s rd v (resultFlags s.flags cu v) 4
    is (exec (.bitclr rd ra k cu) s) false ∧ is (exec (.bitset rd ra k cu) s) true
      ∧ is (exec (.bittgl rd ra k cu) s) (!bitOf a k)
      ∧ FlagEffect (exec (.bittst ra k) s) s { s.flags with t := bitOf a k, z := !bitOf a k } 4

/-- The extensions: the low byte or halfword of x[rA] read as a signed or unsigned integer, and N and Z of the result;
the compressed forms always write them. Rests on the spec's own decision D13. -/
def Obligations.ExtensionResults : Prop :=
  ∀ (rd ra : Reg) (cu : Bool) (s : State),
    let a := s.getReg ra
    let sb := BitVec.ofInt 32 (a.setWidth 8).toInt
    let sh := BitVec.ofInt 32 (a.setWidth 16).toInt
    let zb := BitVec.ofNat 32 (a.toNat % 2 ^ 8)
    let zh := BitVec.ofNat 32 (a.toNat % 2 ^ 16)
    let nz := fun (r : Result) (v : Word) (uf : Bool) (delta : Word) =>
      AluEffect r s rd v (resultFlags s.flags uf v) delta
    nz (exec (.extsb rd ra cu) s) sb cu 4 ∧ nz (exec (.extsh rd ra cu) s) sh cu 4
      ∧ nz (exec (.extzb rd ra cu) s) zb cu 4 ∧ nz (exec (.extzh rd ra cu) s) zh cu 4
      ∧ nz (exec (.extsbC rd ra) s) sb true 2 ∧ nz (exec (.extshC rd ra) s) sh true 2
      ∧ nz (exec (.extzbC rd ra) s) zb true 2 ∧ nz (exec (.extzhC rd ra) s) zh true 2

/-- `ldi`, `ldis`, `ldi!` load their immediate and `mv!` copies a register; no flag changes. Rests on the spec's own
decisions D7, D13. -/
def Obligations.ImmediateLoadsAndMove : Prop :=
  ∀ (rd ra : Reg) (imm16 : BitVec 16) (imm5 : BitVec 5) (s : State),
    AluEffect (exec (.ldi rd imm16) s) s rd (signedWord imm16) s.flags 4
      ∧ AluEffect (exec (.ldis rd imm16) s) s rd (BitVec.ofNat 32 (imm16.toNat * 2 ^ 16)) s.flags 4
      ∧ AluEffect (exec (.ldiC rd imm5) s) s rd (signedWord imm5) s.flags 2
      ∧ AluEffect (exec (.mvC rd ra) s) s rd (s.getReg ra) s.flags 2

/-- `nop` and `nop!` change pc only. -/
def Obligations.NopsChangePcOnly : Prop :=
  ∀ s : State, exec .nop s = .next { s with pc := s.pc + 4#32 } ∧ exec .nopC s = .next { s with pc := s.pc + 2#32 }

/-! ## Shifts and rotates -/

/-- `sll`, `srl`, `sra`, `ror`, `rol` by register: the amount is x[rB] modulo 32. -/
def Obligations.ShiftsByRegister : Prop :=
  ∀ (rd ra rb : Reg) (cu : Bool) (s : State),
    let a := s.getReg ra
    let n := (s.getReg rb).toNat % 32
    let shift := fun (r : Result) (v : Word) (carry : Bool) =>
      AluEffect r s rd v (shiftedFlags s.flags cu v n carry) 4
    shift (exec (.sll rd ra rb cu) s) (BitVec.ofNat 32 (a.toNat * 2 ^ n)) (a.getLsbD (32 - n))
      ∧ shift (exec (.srl rd ra rb cu) s) (BitVec.ofNat 32 (a.toNat / 2 ^ n)) (a.getLsbD (n - 1))
      ∧ shift (exec (.sra rd ra rb cu) s) (BitVec.ofInt 32 (a.toInt / 2 ^ n)) (a.getLsbD (n - 1))
      ∧ shift (exec (.ror rd ra rb cu) s) (a.rotateRight n) (a.getLsbD (n - 1))
      ∧ shift (exec (.rol rd ra rb cu) s) (a.rotateLeft n) (a.getLsbD (32 - n))

/-- `slli`, `srli`, `srai`, `rori`, `roli` and their compressed forms: the amount is the immediate; the compressed forms
shift x[rD] in place and always write flags. Rests on the spec's own decision D13. -/
def Obligations.ShiftsByImmediate : Prop :=
  ∀ (rd ra : Reg) (imm : BitVec 5) (cu : Bool) (s : State),
    let a := s.getReg ra
    let d := s.getReg rd
    let n := imm.toNat
    let full := fun (r : Result) (v : Word) (carry : Bool) =>
      AluEffect r s rd v (shiftedFlags s.flags cu v n carry) 4
    let short := fun (r : Result) (v : Word) (carry : Bool) =>
      AluEffect r s rd v (shiftedFlags s.flags true v n carry) 2
    full (exec (.slli rd ra imm cu) s) (BitVec.ofNat 32 (a.toNat * 2 ^ n)) (a.getLsbD (32 - n))
      ∧ full (exec (.srli rd ra imm cu) s) (BitVec.ofNat 32 (a.toNat / 2 ^ n)) (a.getLsbD (n - 1))
      ∧ full (exec (.srai rd ra imm cu) s) (BitVec.ofInt 32 (a.toInt / 2 ^ n)) (a.getLsbD (n - 1))
      ∧ full (exec (.rori rd ra imm cu) s) (a.rotateRight n) (a.getLsbD (n - 1))
      ∧ full (exec (.roli rd ra imm cu) s) (a.rotateLeft n) (a.getLsbD (32 - n))
      ∧ short (exec (.slliC rd imm) s) (BitVec.ofNat 32 (d.toNat * 2 ^ n)) (d.getLsbD (32 - n))
      ∧ short (exec (.srliC rd imm) s) (BitVec.ofNat 32 (d.toNat / 2 ^ n)) (d.getLsbD (n - 1))
      ∧ short (exec (.sraiC rd imm) s) (BitVec.ofInt 32 (d.toInt / 2 ^ n)) (d.getLsbD (n - 1))
      ∧ short (exec (.roriC rd imm) s) (d.rotateRight n) (d.getLsbD (n - 1))
      ∧ short (exec (.roliC rd imm) s) (d.rotateLeft n) (d.getLsbD (32 - n))

/-- `rorc`, `rolc`, `roric`, `rolic` rotate the 33 bits of C and x[rA] together by the amount: the low 32 bits are the
result, bit 32 the new C when CU is 1. Rests on the spec's own decision D24. -/
def Obligations.RotatesThroughCarry : Prop :=
  ∀ (rd ra rb : Reg) (imm : BitVec 5) (cu : Bool) (s : State),
    let whole : BitVec 33 := BitVec.ofNat 33 (s.flags.c.toNat * 2 ^ 32 + (s.getReg ra).toNat)
    let n := (s.getReg rb).toNat % 32
    let rot := fun (r : Result) (x : BitVec 33) (n : Nat) =>
      AluEffect r s rd (x.setWidth 32) (shiftedFlags s.flags cu (x.setWidth 32) n (x.getLsbD 32)) 4
    rot (exec (.rorc rd ra rb cu) s) (whole.rotateRight n) n
      ∧ rot (exec (.rolc rd ra rb cu) s) (whole.rotateLeft n) n
      ∧ rot (exec (.roric rd ra imm cu) s) (whole.rotateRight imm.toNat) imm.toNat
      ∧ rot (exec (.rolic rd ra imm cu) s) (whole.rotateLeft imm.toNat) imm.toNat

/-! ## Multiply, divide and the custom-engine moves -/

/-- Everything but CEL, CEH and pc is as before. -/
def Sys2Proof.Machine.CeEffect (r : Result) (s : State) (P : Word → Word → Prop) : Prop :=
  Completes r fun t => P t.cel t.ceh ∧ SameRegs s t ∧ t.flags = s.flags ∧ t.pc = s.pc + 4#32 ∧ SameSr s t ∧ SameCr s t
    ∧ SameRun s t ∧ SameMemory s t ∧ t.draws = s.draws

/-- `mul`, `mulu`: CEH and CEL are the high and low words of the exact signed or unsigned product. -/
def Obligations.MultiplyExactProduct : Prop :=
  ∀ (ra rb : Reg) (s : State),
    let a := s.getReg ra
    let b := s.getReg rb
    CeEffect (exec (.mul ra rb) s) s
        (fun lo hi => hi.toInt * 2 ^ 32 + (lo.toNat : Int) = a.toInt * b.toInt)
      ∧ CeEffect (exec (.mulu ra rb) s) s (fun lo hi => hi.toNat * 2 ^ 32 + lo.toNat = a.toNat * b.toNat)

/-- `divu`: CEL the quotient and CEH the remainder of the unsigned division. `div`: the quotient rounded toward zero and
the remainder with the dividend's sign; the one overflow gives quotient 0x80000000 and remainder 0. A divisor of 0
changes neither word. Rests on the spec's own decision D27. -/
def Obligations.DivisionResults : Prop :=
  ∀ (ra rb : Reg) (s : State),
    let a := s.getReg ra
    let b := s.getReg rb
    CeEffect (exec (.divu ra rb) s) s (fun lo hi =>
        if b.toNat = 0 then lo = s.cel ∧ hi = s.ceh
        else a.toNat = lo.toNat * b.toNat + hi.toNat ∧ hi.toNat < b.toNat)
      ∧ CeEffect (exec (.div ra rb) s) s (fun lo hi =>
        if b.toInt = 0 then lo = s.cel ∧ hi = s.ceh
        else if a.toInt = -2 ^ 31 ∧ b.toInt = -1 then lo = 0x80000000#32 ∧ hi = 0#32
        else a.toInt = lo.toInt * b.toInt + hi.toInt ∧ hi.toInt.natAbs < b.toInt.natAbs
          ∧ (hi.toInt = 0 ∨ (hi.toInt < 0 ↔ a.toInt < 0)))

/-- Division by zero (R154): if the divisor is 0, `div` and `divu` keep CEL and CEH, change no flag and raise no
exception, and the step that runs them succeeds: it returns true, and its next state differs in pc and in the
bookkeeping of a successful step alone. -/
def Obligations.DivisionByZeroIsNoOp : Prop :=
  ∀ (ra rb : Reg) (s : State), s.getReg rb = 0#32 →
    exec (.div ra rb) s = .next { s with pc := s.pc + 4#32 }
      ∧ exec (.divu ra rb) s = .next { s with pc := s.pc + 4#32 }
      ∧ (s.running = true → s.fetchable s.pc = true → s.atBreakpoint = false →
          (decode (s.memRead s.pc .word).1 = .ok (.div ra rb) ∨ decode (s.memRead s.pc .word).1 = .ok (.divu ra rb)) →
          s.stepReturn = .returnsTrue
            ∧ step s = .next { s with
                pc := s.pc + 4#32, faultCount := 0, cycles := s.cycles + 1#64, instructions := s.instructions + 1#64 })

/-- The custom-engine moves. For `mfcehl` with rD = rA the register receives CEL. Rests on the spec's own decision D46. -/
def Obligations.CustomEngineMoves : Prop :=
  ∀ (rd ra : Reg) (s : State),
    AluEffect (exec (.mfcel rd) s) s rd s.cel s.flags 4
      ∧ AluEffect (exec (.mfceh rd) s) s rd s.ceh s.flags 4
      ∧ (Completes (exec (.mfcehl rd ra) s) fun t =>
          (∀ q, t.getReg q =
              if q = 0#5 then 0#32 else if q = ra then s.cel else if q = rd then s.ceh else s.getReg q)
            ∧ t.flags = s.flags ∧ t.pc = s.pc + 4#32 ∧ OnlyCore s t)
      ∧ CeEffect (exec (.mtcel rd) s) s (fun lo hi => lo = s.getReg rd ∧ hi = s.ceh)
      ∧ CeEffect (exec (.mtceh rd) s) s (fun lo hi => lo = s.cel ∧ hi = s.getReg rd)
      ∧ CeEffect (exec (.mtcehl rd ra) s) s (fun lo hi => lo = s.getReg ra ∧ hi = s.getReg rd)

/-! ## Special registers and conditional operations -/

/-- `mfcr` reads and `mtcr` writes every control register whole, with no other effect. Rests on the spec's own decisions
D4, D16, D47. -/
def Obligations.ControlRegisterMoves : Prop :=
  ∀ (rd : Reg) (n : SpecialIdx) (s : State),
    AluEffect (exec (.mfcr rd n) s) s rd (s.getCr n) s.flags 4
      ∧ (Completes (exec (.mtcr rd n) s) fun t =>
          (∀ m, t.getCr m = if m = n then s.getReg rd else s.getCr m) ∧ SameRegs s t ∧ t.flags = s.flags
            ∧ t.pc = s.pc + 4#32 ∧ SameSr s t ∧ SameCe s t ∧ SameRun s t ∧ SameMemory s t ∧ t.draws = s.draws)

/-- `mfsr` and `mtsr`: sr0 reads as N, Z, C, V and T at bits 31, 30, 29, 28 and 0 and 0 elsewhere, and a write to it
writes the five flags; sr1 to sr31 are storage. Rests on the spec's own decisions D15, D16, D47. -/
def Obligations.SystemRegisterMoves : Prop :=
  ∀ (rd : Reg) (n : SpecialIdx) (s : State),
    AluEffect (exec (.mfsr rd n) s) s rd (s.getSr n) s.flags 4
      ∧ (∀ i < 32, (s.getSr 0#5).getLsbD i =
          if i = 31 then s.flags.n else if i = 30 then s.flags.z else if i = 29 then s.flags.c
          else if i = 28 then s.flags.v else if i = 0 then s.flags.t else false)
      ∧ (Completes (exec (.mtsr rd n) s) fun t =>
          let v := s.getReg rd
          (t.flags = if n = 0#5 then ⟨v.getLsbD 31, v.getLsbD 30, v.getLsbD 29, v.getLsbD 28, v.getLsbD 0⟩ else s.flags)
            ∧ (∀ m, m ≠ 0#5 → t.getSr m = if m = n then v else s.getSr m)
            ∧ SameRegs s t ∧ t.pc = s.pc + 4#32 ∧ SameCr s t ∧ SameCe s t ∧ SameRun s t ∧ SameMemory s t
            ∧ t.draws = s.draws)

/-- `t{cond}` writes T with the condition and nothing else; `mv{cond}` moves when the condition holds and goes on either
way. Rests on the spec's own decisions D10, D47. -/
def Obligations.ConditionalOperations : Prop :=
  ∀ (c : Cond) (rd ra : Reg) (s : State),
    FlagEffect (exec (.tCond c) s) s { s.flags with t := s.flags.cond c } 4
      ∧ AluEffect (exec (.mvCond c rd ra) s) s rd (if s.flags.cond c then s.getReg ra else s.getReg rd) s.flags 4

/-! ## Jumps and branches -/

/-- `j` and `jl`: the target is pc plus twice the signed displacement, modulo 2^32, which reaches from -2^24
to 2^24 - 2; `jl` writes pc + 4 to r3. -/
def Obligations.JumpsReachTheTarget : Prop :=
  ∀ (disp : BitVec 24) (s : State),
    let target := BitVec.ofInt 32 (s.pc.toNat + 2 * disp.toInt)
    JumpEffect (exec (.j disp) s) s target none ∧ JumpEffect (exec (.jl disp) s) s target (some (s.pc + 4#32))
      ∧ -2 ^ 24 ≤ 2 * disp.toInt ∧ 2 * disp.toInt ≤ 2 ^ 24 - 2

/-- `b{cond}`, `b{cond}l`, `b{cond}!`: taken, the target is pc plus twice the signed displacement and only the linking
form writes r3; not taken, pc moves past the instruction and r3 is kept. Rests on the spec's own decisions D9, D13. -/
def Obligations.BranchesFollowTheCondition : Prop :=
  ∀ (c : Cond) (disp22 : BitVec 22) (disp8 : BitVec 8) (s : State),
    let far := BitVec.ofInt 32 (s.pc.toNat + 2 * disp22.toInt)
    let near := BitVec.ofInt 32 (s.pc.toNat + 2 * disp8.toInt)
    if s.flags.cond c = true then
      JumpEffect (exec (.bCond c disp22) s) s far none
        ∧ JumpEffect (exec (.bCondL c disp22) s) s far (some (s.pc + 4#32))
        ∧ JumpEffect (exec (.bCondC c disp8) s) s near none
    else
      JumpEffect (exec (.bCond c disp22) s) s (s.pc + 4#32) none
        ∧ JumpEffect (exec (.bCondL c disp22) s) s (s.pc + 4#32) none
        ∧ JumpEffect (exec (.bCondC c disp8) s) s (s.pc + 2#32) none

/-- `br`, `brl`, `br!`, `brl!` jump to x[rA] as it was before the link, which is pc + 4 or pc + 2. Rests on the spec's
own decisions D37, D44, D45. -/
def Obligations.RegisterJumps : Prop :=
  ∀ (ra : Reg) (s : State),
    JumpEffect (exec (.br ra) s) s (s.getReg ra) none
      ∧ JumpEffect (exec (.brl ra) s) s (s.getReg ra) (some (s.pc + 4#32))
      ∧ JumpEffect (exec (.brC ra) s) s (s.getReg ra) none
      ∧ JumpEffect (exec (.brlC ra) s) s (s.getReg ra) (some (s.pc + 2#32))

/-! ## Exceptions -/

/-- `syscall`, `trap`, `sdbbp` and `break!` take the exceptions 1, 2, 3 and 3, saving their own address. Rests on the
spec's own decisions D4, D17, D19, D20, D45, D55. -/
def Obligations.SoftwareExceptionsEnter : Prop :=
  ∀ s : State,
    (Completes (exec .syscall s) fun t => Entered s t 1#8 ∧ t.intc = s.intc ∧ SameMemory s t)
      ∧ (Completes (exec .trap s) fun t => Entered s t 2#8 ∧ t.intc = s.intc ∧ SameMemory s t)
      ∧ (Completes (exec .sdbbp s) fun t => Entered s t 3#8 ∧ t.intc = s.intc ∧ SameMemory s t)
      ∧ (Completes (exec .breakC s) fun t => Entered s t 3#8 ∧ t.intc = s.intc ∧ SameMemory s t)

/-- `rte` restores the five flags from cr1 and pc from cr5 and changes no register, no other state. Rests on the spec's
own decision D4. -/
def Obligations.RteRestoresFlagsAndPc : Prop :=
  ∀ s : State, Completes (exec .rte s) fun t =>
    let w := s.getCr 1#5
    t.flags = ⟨w.getLsbD 31, w.getLsbD 30, w.getLsbD 29, w.getLsbD 28, w.getLsbD 0⟩ ∧ t.pc = s.getCr 5#5
      ∧ SameRegs s t ∧ OnlyCore s t

/-- Taking any exception and returning at once with `rte` restores pc and all five flags. -/
def Obligations.ExceptionThenRteRestores : Prop :=
  ∀ (s : State) (cause : BitVec 8), Completes (exec .rte (s.takeException cause)) fun t =>
    t.pc = s.pc ∧ t.flags = s.flags ∧ SameRegs s t ∧ SameCe s t ∧ t.mem = s.mem

/-- `trigger(irq)` (R340): outside 0 to 31 only the blocked counter grows; inside, the STATUS bit is set whatever the
mask, and with the line enabled and a CPU connected the exception irq is taken, otherwise the blocked counter grows. -/
def Obligations.TriggerDelivers : Prop :=
  ∀ (s : State) (irq : Int),
    Completes (hostEvent (.trigger irq) s) fun t =>
      if 0 ≤ irq ∧ irq ≤ 31 then
        (∀ i < 32, t.intc.status.getLsbD i = (decide ((i : Int) = irq) || s.intc.status.getLsbD i))
          ∧ t.intc.mask = s.intc.mask ∧ t.intc.prio = s.intc.prio ∧ t.intc.cpuConnected = s.intc.cpuConnected
          ∧ if s.intc.mask.getLsbD irq.toNat = true ∧ s.intc.cpuConnected = true then
              Entered s t (BitVec.ofInt 8 irq) ∧ t.intc.blocked = s.intc.blocked
            else t = { s with intc := t.intc } ∧ t.intc.blocked = s.intc.blocked + 1
      else t = { s with intc := { s.intc with blocked := s.intc.blocked + 1 } }

/-- Two triggers between the same two steps are two entries: the second saves the first's vector and wins pc (R334,
R335). Rests on the spec's own decision D32. -/
def Obligations.NestedEntryClobbers : Prop :=
  ∀ (s : State) (i j : BitVec 5), s.intc.mask.getLsbD i.toNat = true → s.intc.mask.getLsbD j.toNat = true →
    s.intc.cpuConnected = true →
    Completes (runEvents [.host (.trigger i.toNat), .host (.trigger j.toNat)] s) fun t =>
      t.getCr 5#5 = BitVec.ofNat 32 ((s.getCr 3#5).toNat + 4 * i.toNat)
        ∧ t.pc = BitVec.ofNat 32 ((s.getCr 3#5).toNat + 4 * j.toNat) ∧ t.getCr 1#5 = s.flags.pack
        ∧ ∀ k : Nat, k < 6 → (t.getCr 2#5).getLsbD (18 + k) = (j.toNat.testBit k)

/-! ## Loads and stores -/

/-- The loads of RIX base+offset and Memory-Form: the address is x[rA] plus the signed offset. Rests on the spec's own
decisions D11, D12. -/
def Obligations.BaseOffsetLoads : Prop :=
  ∀ (rd ra : Reg) (imm12 : BitVec 12) (imm15 : BitVec 15) (s : State),
    let e := s.getReg ra + signedWord imm12
    let f := s.getReg ra + signedWord imm15
    LoadEffect (exec (.lwRix rd ra imm12) s) s rd (loadWord s e) 4
      ∧ LoadEffect (exec (.lhRix rd ra imm12) s) s rd (loadHalfSigned s e) 4
      ∧ LoadEffect (exec (.lhuRix rd ra imm12) s) s rd (loadHalfUnsigned s e) 4
      ∧ LoadEffect (exec (.lbRix rd ra imm12) s) s rd (loadByteSigned s e) 4
      ∧ LoadEffect (exec (.lbuRix rd ra imm12) s) s rd (loadByteUnsigned s e) 4
      ∧ LoadEffect (exec (.lw rd ra imm15) s) s rd (loadWord s f) 4
      ∧ LoadEffect (exec (.lh rd ra imm15) s) s rd (loadHalfSigned s f) 4
      ∧ LoadEffect (exec (.lhu rd ra imm15) s) s rd (loadHalfUnsigned s f) 4
      ∧ LoadEffect (exec (.lb rd ra imm15) s) s rd (loadByteSigned s f) 4
      ∧ LoadEffect (exec (.lbu rd ra imm15) s) s rd (loadByteUnsigned s f) 4

/-- The loads at a plain register address (`lcb`, `lcw`, the compressed loads) and the SP-relative `lwp!`, whose address
is r2 plus four times the immediate. Rests on the spec's own decisions D13, D14, D48. -/
def Obligations.RegisterIndirectLoads : Prop :=
  ∀ (rd ra : Reg) (imm7 : BitVec 7) (s : State),
    let e := s.getReg ra
    LoadEffect (exec (.lcb rd ra) s) s rd (loadByteUnsigned s e) 4
      ∧ LoadEffect (exec (.lcw rd ra) s) s rd (loadWord s e) 4
      ∧ LoadEffect (exec (.lwC rd ra) s) s rd (loadWord s e) 2
      ∧ LoadEffect (exec (.lhC rd ra) s) s rd (loadHalfSigned s e) 2
      ∧ LoadEffect (exec (.lhuC rd ra) s) s rd (loadHalfUnsigned s e) 2
      ∧ LoadEffect (exec (.lbC rd ra) s) s rd (loadByteSigned s e) 2
      ∧ LoadEffect (exec (.lbuC rd ra) s) s rd (loadByteUnsigned s e) 2
      ∧ LoadEffect (exec (.lwpC rd imm7) s) s rd (loadWord s (s.getReg 2#5 + BitVec.ofNat 32 (4 * imm7.toNat))) 2

/-- The post-increment loads and `pop!`: the access is at the old base, the base receives base + offset, and the loaded
value wins when rD = rA. Rests on the spec's own decisions D11, D13, D43. -/
def Obligations.PostIncrementLoads : Prop :=
  ∀ (rd ra : Reg) (imm12 : BitVec 12) (s : State),
    let e := s.getReg ra
    let e' := e + signedWord imm12
    LoadPostEffect (exec (.lwPi rd ra imm12) s) s rd ra (loadWord s e) e' 4
      ∧ LoadPostEffect (exec (.lhPi rd ra imm12) s) s rd ra (loadHalfSigned s e) e' 4
      ∧ LoadPostEffect (exec (.lhuPi rd ra imm12) s) s rd ra (loadHalfUnsigned s e) e' 4
      ∧ LoadPostEffect (exec (.lbPi rd ra imm12) s) s rd ra (loadByteSigned s e) e' 4
      ∧ LoadPostEffect (exec (.lbuPi rd ra imm12) s) s rd ra (loadByteUnsigned s e) e' 4
      ∧ LoadPostEffect (exec (.popC rd ra) s) s rd ra (loadWord s e) (e + 4#32) 2

/-- The stores of RIX base+offset and Memory-Form: the low bytes of x[rD] at x[rA] plus the signed offset, and nothing
else changes. Rests on the spec's own decisions D1, D11, D12, D29, D30, D32; that a store which begins at offsets 13 to 15
of the INTC's segment and runs past 15 acts byte by byte is the model's reading (log entry 6). -/
def Obligations.BaseOffsetStores : Prop :=
  ∀ (rd ra : Reg) (imm12 : BitVec 12) (imm15 : BitVec 15) (s : State),
    let e := s.getReg ra + signedWord imm12
    let f := s.getReg ra + signedWord imm15
    let d := s.getReg rd
    StoreEffect (exec (.swRix rd ra imm12) s) s e 4 d 4
      ∧ StoreEffect (exec (.shRix rd ra imm12) s) s e 2 d 4
      ∧ StoreEffect (exec (.sbRix rd ra imm12) s) s e 1 d 4
      ∧ StoreEffect (exec (.sw rd ra imm15) s) s f 4 d 4
      ∧ StoreEffect (exec (.sh rd ra imm15) s) s f 2 d 4
      ∧ StoreEffect (exec (.sb rd ra imm15) s) s f 1 d 4

/-- The stores at a plain register address (`scb`, `scw`, the compressed stores) and the SP-relative `swp!`. Rests on
the spec's own decisions D1, D13, D14, D29, D30, D32, D48; that a store which begins at offsets 13 to 15 of the INTC's
segment and runs past 15 acts byte by byte is the model's reading (log entry 6). -/
def Obligations.RegisterIndirectStores : Prop :=
  ∀ (rd ra : Reg) (imm7 : BitVec 7) (s : State),
    let e := s.getReg ra
    let d := s.getReg rd
    StoreEffect (exec (.scb rd ra) s) s e 1 d 4
      ∧ StoreEffect (exec (.scw rd ra) s) s e 4 d 4
      ∧ StoreEffect (exec (.swC rd ra) s) s e 4 d 2
      ∧ StoreEffect (exec (.shC rd ra) s) s e 2 d 2
      ∧ StoreEffect (exec (.sbC rd ra) s) s e 1 d 2
      ∧ StoreEffect (exec (.swpC rd imm7) s) s (s.getReg 2#5 + BitVec.ofNat 32 (4 * imm7.toNat)) 4 d 2

/-- The post-increment stores, at the old base, and `push!`, at the base minus 4: the old x[rD] is stored, then the base
receives its new value. Rests on the spec's own decisions D1, D11, D13, D29, D30, D32; that a store which begins at
offsets 13 to 15 of the INTC's segment and runs past 15 acts byte by byte is the model's reading (log entry 6). -/
def Obligations.BaseUpdatingStores : Prop :=
  ∀ (rd ra : Reg) (imm12 : BitVec 12) (s : State),
    let e := s.getReg ra
    let d := s.getReg rd
    StoreBaseEffect (exec (.swPi rd ra imm12) s) s ra (e + signedWord imm12) e 4 d 4
      ∧ StoreBaseEffect (exec (.shPi rd ra imm12) s) s ra (e + signedWord imm12) e 2 d 4
      ∧ StoreBaseEffect (exec (.sbPi rd ra imm12) s) s ra (e + signedWord imm12) e 1 d 4
      ∧ StoreBaseEffect (exec (.pushC rd ra) s) s ra (e - 4#32) (e - 4#32) 4 d 2

/-! ## The MIU -/

/-- Address decomposition and routing (R61): the segment is the top byte, the offset the low 24 bits, and a read depends
on the address only through the region its segment is bound to and the offset. -/
def Obligations.AddressDecomposition : Prop :=
  (∀ a : Word, segmentOf a = a.toNat / 2 ^ 24 ∧ offsetOf a = a.toNat % 2 ^ 24)
    ∧ ∀ (s : State) (a b : Word) (w : Width), s.region a = s.region b → offsetOf a = offsetOf b →
        s.memRead a w = s.memRead b w ∧ ∀ v, s.memWrite a w v = s.memWrite b w v

/-- A read of a dense region is the little-endian sum of its bytes, with no side effect, and 0 as a whole when it runs
past the region's size. Rests on the spec's own decisions D1, D29. -/
def Obligations.DenseReadIsLittleEndian : Prop :=
  ∀ (s : State) (a : Word) (w : Width) (d : Dense), s.region a = .dense d →
    (s.memRead a w).2 = s
      ∧ (offsetOf a + w.bytes ≤ d.size →
          (s.memRead a w).1.toNat =
            ((List.range w.bytes).map fun k => (s.mem.get (d.home + offsetOf a + k)).toNat * 2 ^ (8 * k)).sum)
      ∧ (d.size < offsetOf a + w.bytes → (s.memRead a w).1 = 0#32)

/-- Writing then reading the same in-bounds DRAM address at the same width returns the value written, cut to the width
(R67). -/
def Obligations.DramReadAfterWrite : Prop :=
  ∀ (s : State) (a v : Word) (w : Width), s.region a = .dense .dram → offsetOf a + w.bytes ≤ Config.dramSize →
    ((s.memWrite a w v).memRead a w).1.toNat = v.toNat % 2 ^ (8 * w.bytes)

/-- The sink (R68): a read of any address of an unbound segment returns 0 for every offset and width and changes
nothing, and a write there changes nothing. -/
def Obligations.SinkReadsZero : Prop :=
  ∀ (s : State) (a v : Word) (w : Width), s.region a = .sink → s.memRead a w = (0#32, s) ∧ s.memWrite a w v = s

/-- A peripheral access outside the INTC registers: a read returns the low bytes, as many as its width, of the free value
that the next draw picks, whatever that value is, and uses up the draw, so that the next read takes another; a write
changes nothing (R69). Rests on the spec's own decision D50; the draw is the model's free value (log entry 5). -/
def Obligations.PeripheralReadIsFree : Prop :=
  ∀ (s : State) (a v : Word) (w : Width),
    (s.region a = .cdrom ∨ (s.region a = .mmio ∧ 16 ≤ offsetOf a)) →
      (s.memRead a w).1.toNat = (Config.peripheralDraw s.draws).toNat % 2 ^ (8 * w.bytes)
        ∧ (s.memRead a w).1.toNat < 2 ^ (8 * w.bytes) ∧ (s.memRead a w).2 = { s with draws := s.draws + 1 }
        ∧ s.memWrite a w v = s

/-- The INTC register file: a word access at 0, 4, 8 and 12 reads INT_MASK, INT_PRIO, INT_STATUS and 0; a read of any
width inside the 16 bytes gives the little-endian bytes of that 128-bit file, with no side effect; a write of any width
at any offset changes the INTC by its covered bytes and nothing else: no interrupt is delivered. Rests on the spec's own
decisions D1, D32; that a write running past offset 15 acts byte by byte there too is the model's reading (log entry 6). -/
def Obligations.IntcRegisterFile : Prop :=
  ∀ (s : State) (a v : Word) (w : Width), s.region a = .mmio →
    let file := s.intc.mask.toNat + 2 ^ 32 * s.intc.prio.toNat + 2 ^ 64 * s.intc.status.toNat
    let t := s.memWrite a w v
    (offsetOf a = 0 → s.memRead a .word = (s.intc.mask, s))
      ∧ (offsetOf a = 4 → s.memRead a .word = (s.intc.prio, s))
      ∧ (offsetOf a = 8 → s.memRead a .word = (s.intc.status, s))
      ∧ (offsetOf a = 12 → s.memRead a .word = (0#32, s))
      ∧ (offsetOf a + w.bytes ≤ 16 → (s.memRead a w).2 = s
          ∧ (s.memRead a w).1.toNat = file / 2 ^ (8 * offsetOf a) % 2 ^ (8 * w.bytes))
      ∧ IntcStored s.intc t.intc (offsetOf a) w.bytes v ∧ t = { s with intc := t.intc }

/-! ## The instruction cycle -/

/-- A step runs the decoded instruction: with items 1 to 5 of R100 passed, when the fetched word decodes to `i`, `exec i`
answers a next state `t`, and the step answers `t` with fault_count 0 and both counters one higher. -/
def Obligations.StepRunsTheDecodedInstruction : Prop :=
  ∀ (s : State) (i : Instr), s.running = true → s.fetchable s.pc = true → s.atBreakpoint = false →
    decode (s.memRead s.pc .word).1 = .ok i →
    i.wellFormed = true ∧ s.stepReturn = .returnsTrue ∧ ∃ t, exec i s = .next t
      ∧ step s = .next { t with
          faultCount := 0, cycles := t.cycles + 1#64, instructions := t.instructions + 1#64 }

/-- Items 1, 2, 3 and 5 of R100: not initialized is the host error; halted or paused is a step that changes nothing; then
a detached memory interface is a StepFault; then, at a fetchable pc, a host breakpoint sets `paused` and nothing else
changes (R361). Only the last three return false. That a call which returns false is a next state is the model's choice
(log entry 3). -/
def Obligations.StepGuards : Prop :=
  ∀ s : State,
    (s.initialized = false → step s = .fault .notInitialized ∧ s.stepReturn = .notInitialized)
      ∧ (s.initialized = true → (s.halted = true ∨ s.paused = true) →
          step s = .next s ∧ s.stepReturn = .returnsFalse)
      ∧ (s.initialized = true → s.halted = false → s.paused = false → s.miuAttached = false →
          step s = .next { s with faultCount := s.faultCount + 1, halted := decide (100 < s.faultCount + 1) }
            ∧ s.stepReturn = .returnsFalse)
      ∧ (s.running = true → s.fetchable s.pc = true → s.pc.toNat ∈ s.breakpoints →
          step s = .next { s with paused := true } ∧ s.stepReturn = .returnsFalse)

/-- An illegal fetch (R336): with pc not fetchable, in the sink, a register file, or within three bytes of the end of a
dense region, the step takes exception 0xFF at the pc, breakpoint or not, and changes no counter. Rests on the spec's own
decisions D18, D19, D28, D35; that this call, which returns false, is a next state is the model's choice (log entry 3). -/
def Obligations.IllegalFetchEnters : Prop :=
  ∀ s : State, s.running = true →
    (s.region s.pc = .sink ∨ s.region s.pc = .mmio ∨ s.region s.pc = .cdrom
      ∨ ∃ d, s.region s.pc = .dense d ∧ d.size < offsetOf s.pc + 4) →
    Completes (step s) fun t => Entered s t 0xFF#8 ∧ t.intc = s.intc ∧ s.stepReturn = .returnsFalse

/-- A reserved encoding is a StepFault (R350): fault_count grows, past 100 the CPU halts, and nothing else changes; the
pc is not advanced and no guest exception is raised. Rests on the spec's own decision D5; that this call, which returns
false, is a next state is the model's choice (log entry 3). -/
def Obligations.ReservedEncodingIsStepFault : Prop :=
  ∀ (s : State) (e : Reserved), s.running = true → s.fetchable s.pc = true → s.atBreakpoint = false →
    decode (s.memRead s.pc .word).1 = .error e →
    step s = .next { s with faultCount := s.faultCount + 1, halted := decide (100 < s.faultCount + 1) }
      ∧ s.stepReturn = .returnsFalse

/-- The fault breaker: from fault_count 0, where every step is a StepFault (no memory interface is attached, or the word
at a fetchable pc without a breakpoint is reserved), k consecutive steps give fault_count k for k up to 101, the 101st
halts the CPU, every later step changes nothing, and nothing else ever changes (R350, R351). Rests on the spec's own
decision D34; that these calls, which return false, are next states is the model's choice (log entry 3). -/
def Obligations.BreakerHaltsAtTheHundredAndFirst : Prop :=
  ∀ (s : State) (k : Nat), s.initialized = true → s.halted = false → s.paused = false → s.faultCount = 0 →
    (s.miuAttached = false
      ∨ (s.fetchable s.pc = true ∧ s.atBreakpoint = false ∧ ∃ e, decode (s.memRead s.pc .word).1 = .error e)) →
    runEvents (List.replicate k .step) s = .next { s with faultCount := min k 101, halted := decide (101 ≤ k) }

/-! ## Whole-machine rules and invariants -/

/-- Every step of an initialized machine answers a next state and never the host error of R353; the machine stays
initialized (R42), with the same segment table (R91). It may be halted or paused there (R40): that a call which returns
false is a next state of the model is the model's choice (log entry 3). -/
def Obligations.InitializedMachineNeverStops : Prop :=
  ∀ s : State, s.initialized = true →
    ∃ t, step s = .next t ∧ t.initialized = true ∧ t.segments = s.segments

/-- No instruction changes the run-control state, the counters, the breakpoints or the segment table, and every
instruction completes (R39, R46, R337). -/
def Obligations.InstructionsKeepRunState : Prop :=
  ∀ (i : Instr) (s : State), ∃ t, exec i s = .next t ∧ SameRun s t

/-- Who writes the special state: T by `bittst`, `t{cond}`, `mtsr` to sr0 and `rte` (R29); the control registers by
`mtcr` and by taking an exception; sr1 to sr31 by `mtsr` only; the CE pair by the multiplies, the divides and the CE
moves (R31, R32, R38). No other instruction changes any of them. -/
def Obligations.OnlyNamedInstructionsWriteSpecialState : Prop :=
  ∀ (i : Instr) (s t : State), exec i s = .next t →
    (t.flags.t ≠ s.flags.t →
        (∃ ra k, i = .bittst ra k) ∨ (∃ c, i = .tCond c) ∨ (∃ rd, i = .mtsr rd 0#5) ∨ i = .rte)
      ∧ (¬ SameCr s t → (∃ rd n, i = .mtcr rd n) ∨ i ∈ [.syscall, .trap, .sdbbp, .breakC])
      ∧ (¬ SameSr s t → ∃ rd n, i = .mtsr rd n ∧ n ≠ 0#5)
      ∧ (¬ SameCe s t → ∃ ra rb, i ∈ [.mul ra rb, .mulu ra rb, .div ra rb, .divu ra rb, .mtcel ra, .mtceh ra,
          .mtcehl ra rb])

/-- FLASH is read-only to the guest: no step changes a byte of it (R67). Rests on the spec's own decision D30. -/
def Obligations.StepNeverChangesFlash : Prop :=
  ∀ s t : State, step s = .next t →
    ∀ off < Config.flashSize, t.mem.get (Dense.flash.home + off) = s.mem.get (Dense.flash.home + off)

/-- The invariant holds after reset. -/
def Obligations.InvariantAtReset : Prop := State.reset.Inv

/-- Every step keeps the invariant: memory in canonical form and inside the dense regions, the breaker's relation
between fault_count and `halted`, and equal counters. -/
def Obligations.StepKeepsInvariant : Prop :=
  ∀ s t : State, s.Inv → step s = .next t → t.Inv

/-- Every host event keeps the invariant. -/
def Obligations.HostEventsKeepInvariant : Prop :=
  ∀ (e : HostEvent) (s t : State), s.Inv → hostEvent e s = .next t → t.Inv

/-! ## Reset and the host's controls -/

/-- What reset leaves in every piece of state: the boot vector in pc, all interrupts enabled and none pending, the segment
map of R76, and by the spec's own decisions D21, D22, D31, D32, D36, D42, D58 zero in every register, flag, counter and
byte and the sink in every other segment. The model's own: the CPU is initialized and connected by the setup (log entry 1),
FLASH holds no image, so its bytes are 0 too (log entry 2), and `draws` (log entry 5) and `blocked` (log entry 13) are
0. -/
def Obligations.ResetValues : Prop :=
  let s := State.reset
  s.pc = 0x9E000000#32 ∧ s.intc.mask = 0xFFFFFFFF#32 ∧ s.intc.status = 0#32 ∧ s.intc.prio = 0#32
    ∧ (∀ r, s.getReg r = 0#32) ∧ (∀ n, s.getSr n = 0#32) ∧ (∀ n, s.getCr n = 0#32)
    ∧ s.flags = ⟨false, false, false, false, false⟩ ∧ s.cel = 0#32 ∧ s.ceh = 0#32 ∧ s.cycles = 0#64
    ∧ s.instructions = 0#64 ∧ s.halted = false ∧ s.paused = false ∧ s.faultCount = 0 ∧ s.breakpoints = []
    ∧ (∀ k, s.mem.get k = 0#8)
    ∧ (∀ a, s.region a =
        if segmentOf a = 0xA0 then .dense .dram else if segmentOf a = 0x9E then .dense .flash
        else if segmentOf a = 0x08 then .mmio else if segmentOf a = 0x09 then .cdrom else .sink)
    ∧ s.initialized = true ∧ s.miuAttached = true ∧ s.intc.cpuConnected = true ∧ s.intc.blocked = 0 ∧ s.draws = 0
    ∧ runEvents [.host (.initializeCpu true), .host .connectCpu] State.constructed = .next s

/-- The host's setup and run controls: `initializeCPU` without an interface fails and with one sets `initialized` and
`miu_attached` alone, a resume from halt clears `halted` and fault_count, a resume from a breakpoint clears `paused`, an
INTC reset sets INT_MASK to all ones and INT_STATUS and INT_PRIO to 0, constructing the CPU again gives every piece of its
own state the constructed value and keeps the MIU and the INTC (R374), and `setRegion` rebinds the segment while the CPU is
not initialized and is refused afterwards (R17, R62, R91). Rests on the spec's own decisions D34, D36, D59, D60. The
model's own: the failed call is a fault outcome (log entry 3); each resume clears its own state and keeps the other's (log
entry 11); an INTC reset keeps `blocked` (log entry 13); setup and reset are the time before `initializeCPU` (log entry
20); `cpu_connected` is kept when the CPU is constructed again (log entry 21). -/
def Obligations.HostRunControls : Prop :=
  ∀ s : State,
    hostEvent (.initializeCpu false) s = .fault .notInitialized
      ∧ hostEvent (.initializeCpu true) s = .next { s with initialized := true, miuAttached := true }
      ∧ hostEvent .resumeHalted s = .next { s with halted := false, faultCount := 0 }
      ∧ hostEvent .resumePaused s = .next { s with paused := false }
      ∧ hostEvent .resetIntc s = .next { s with
          intc := ⟨0xFFFFFFFF#32, 0#32, 0#32, s.intc.cpuConnected, s.intc.blocked⟩ }
      ∧ hostEvent .constructCpu s = .next
          ⟨Vector.replicate 31 0#32, 0x9E000000#32, ⟨false, false, false, false, false⟩, Vector.replicate 31 0#32,
            Vector.replicate 32 0#32, 0#32, 0#32, 0#64, 0#64, false, 0, false, false, false, [], s.intc, s.segments,
            s.mem, s.draws⟩
      ∧ (s.initialized = true → ∀ seg r, hostEvent (.setRegion seg r) s = .refused .rebindAfterSetup)
      ∧ (s.initialized = false → ∀ (seg : BitVec 8) (r : Region), ∃ t, hostEvent (.setRegion seg r) s = .next t
          ∧ t = { s with segments := t.segments }
          ∧ ∀ a, t.region a = if segmentOf a = seg.toNat then r else s.region a)

/-- `enableIRQ(i)` sets and `disableIRQ(i)` clears bit i of INT_MASK; neither delivers or clears anything (R341). -/
def Obligations.IrqEnableDisable : Prop :=
  ∀ (s : State) (i : BitVec 5),
    (Completes (hostEvent (.enableIrq i) s) fun t =>
        (∀ k < 32, t.intc.mask.getLsbD k = (decide (k = i.toNat) || s.intc.mask.getLsbD k))
          ∧ t = { s with intc := { s.intc with mask := t.intc.mask } })
      ∧ (Completes (hostEvent (.disableIrq i) s) fun t =>
        (∀ k < 32, t.intc.mask.getLsbD k = (decide (k ≠ i.toNat) && s.intc.mask.getLsbD k))
          ∧ t = { s with intc := { s.intc with mask := t.intc.mask } })
end

