-- ==== Sys2Proof/Laws/Cells.lean ====
section
/-! SUPPORT. Sparse storage: reading after storing, and that every operation keeps the canonical form. -/

namespace Sys2Proof.Machine

variable {α : Type} (d : α)

/-! ### The canonical form -/

theorem Cells.wf_cons [DecidableEq α] (k : Nat) (v : α) (l : List (Nat × α)) :
    Cells.wf d ((k, v) :: l) = true ↔ v ≠ d ∧ (∀ p ∈ l, k < p.1) ∧ Cells.wf d l = true := by
  simp [Cells.wf, and_assoc]

/-- A key below every key of the list reads as the default. -/
theorem Cells.get_of_lt (k : Nat) (l : List (Nat × α)) (h : ∀ p ∈ l, k < p.1) : Cells.get d k l = d := by
  induction l with
  | nil => rfl
  | cons p rest ih =>
    obtain ⟨k', v'⟩ := p
    have h1 : k < k' := h (k', v') (by simp)
    simp [Cells.get, Nat.ne_of_lt h1, ih (fun q hq => h q (by simp [hq]))]

theorem Cells.mem_put {k : Nat} {v : α} {l : List (Nat × α)} {p : Nat × α} (h : p ∈ Cells.put k v l) :
    p = (k, v) ∨ p ∈ l := by
  induction l with
  | nil => simpa [Cells.put] using h
  | cons q rest ih =>
    obtain ⟨k', v'⟩ := q
    unfold Cells.put at h
    split at h
    · simpa using h
    · split at h
      · simp only [List.mem_cons] at h ⊢; tauto
      · simp only [List.mem_cons] at h ⊢
        rcases h with h | h
        · tauto
        · rcases ih h with h | h <;> tauto

theorem Cells.mem_drop {k : Nat} {l : List (Nat × α)} {p : Nat × α} (h : p ∈ Cells.drop k l) : p ∈ l :=
  (List.mem_filter.1 h).1

/-- An entry after a store is the one stored or an old one. -/
theorem Cells.mem_set [DecidableEq α] {k : Nat} {v : α} {l : List (Nat × α)} {p : Nat × α} (h : p ∈ Cells.set d k v l) :
    p = (k, v) ∨ p ∈ l := by
  unfold Cells.set at h
  split at h
  · exact .inr (Cells.mem_drop h)
  · exact Cells.mem_put h

theorem Cells.wf_put [DecidableEq α] {k : Nat} {v : α} (hv : v ≠ d) (l : List (Nat × α)) (h : Cells.wf d l = true) :
    Cells.wf d (Cells.put k v l) = true := by
  induction l with
  | nil => simp [Cells.put, Cells.wf, hv]
  | cons p rest ih =>
    obtain ⟨k', v'⟩ := p
    obtain ⟨h1, h2, h3⟩ := (Cells.wf_cons d k' v' rest).1 h
    unfold Cells.put
    split
    case isTrue hlt =>
      refine (Cells.wf_cons d _ _ _).2 ⟨hv, ?_, h⟩
      intro p hp
      rcases List.mem_cons.1 hp with rfl | hp
      · exact hlt
      · exact lt_trans hlt (h2 p hp)
    case isFalse hge =>
      split
      case isTrue heq => subst heq; exact (Cells.wf_cons d _ _ _).2 ⟨hv, h2, h3⟩
      case isFalse hne =>
        refine (Cells.wf_cons d _ _ _).2 ⟨h1, ?_, ih h3⟩
        intro p hp
        rcases Cells.mem_put hp with rfl | hp
        · show k' < k
          omega
        · exact h2 p hp

theorem Cells.wf_drop [DecidableEq α] {k : Nat} (l : List (Nat × α)) (h : Cells.wf d l = true) :
    Cells.wf d (Cells.drop k l) = true := by
  induction l with
  | nil => rfl
  | cons p rest ih =>
    obtain ⟨k', v'⟩ := p
    obtain ⟨h1, h2, h3⟩ := (Cells.wf_cons d k' v' rest).1 h
    unfold Cells.drop
    rw [List.filter_cons]
    split
    · exact (Cells.wf_cons d _ _ _).2 ⟨h1, fun p hp => h2 p (Cells.mem_drop hp), ih h3⟩
    · exact ih h3

/-- A store keeps the canonical form. -/
theorem Cells.wf_set [DecidableEq α] (k : Nat) (v : α) {l : List (Nat × α)} (h : Cells.wf d l = true) :
    Cells.wf d (Cells.set d k v l) = true := by
  unfold Cells.set
  split
  · exact Cells.wf_drop d l h
  case isFalse hv => exact Cells.wf_put d hv l h

/-! ### Reading after storing -/

theorem Cells.get_put (k q : Nat) (v : α) (l : List (Nat × α)) :
    Cells.get d q (Cells.put k v l) = if q = k then v else Cells.get d q l := by
  induction l with
  | nil => simp [Cells.put, Cells.get]
  | cons p rest ih =>
    obtain ⟨k', v'⟩ := p
    unfold Cells.put
    split
    · simp [Cells.get]
    · split
      case isTrue heq => subst heq; by_cases hq : q = k <;> simp [Cells.get, hq]
      case isFalse hne =>
        by_cases hq : q = k'
        · have : k' ≠ k := fun e => hne e.symm
          simp [Cells.get, hq, this]
        · simp [Cells.get, hq, ih]

theorem Cells.get_drop (k q : Nat) (l : List (Nat × α)) :
    Cells.get d q (Cells.drop k l) = if q = k then d else Cells.get d q l := by
  induction l with
  | nil => simp [Cells.drop, Cells.get]
  | cons p rest ih =>
    obtain ⟨k', v'⟩ := p
    unfold Cells.drop at ih ⊢
    rw [List.filter_cons]
    by_cases hk : k' = k
    · subst hk
      simp only [ne_eq, not_true_eq_false, decide_false, Bool.false_eq_true, if_false, ih, Cells.get]
      split <;> rfl
    · by_cases hq : q = k'
      · subst hq; simp [Cells.get, hk]
      · simp [Cells.get, hk, hq, ← ih]

/-- Reading after a store: the value stored at its key, every other key as before. -/
theorem Cells.get_set [DecidableEq α] (k q : Nat) (v : α) (l : List (Nat × α)) :
    Cells.get d q (Cells.set d k v l) = if q = k then v else Cells.get d q l := by
  unfold Cells.set
  split
  case isTrue hv => subst hv; exact Cells.get_drop v k q l
  case isFalse hv => exact Cells.get_put d k q v l

/-! ### Memory -/

theorem Memory.wf_set (m : Memory) (k : Nat) (b : Byte) (h : m.wf = true) : (m.set k b).wf = true :=
  Cells.wf_set unlistedByte k b h

theorem Memory.get_set (m : Memory) (k q : Nat) (b : Byte) :
    (m.set k b).get q = if q = k then b else m.get q :=
  Cells.get_set unlistedByte k q b m

/-- Storing bytes keeps the canonical form of memory. -/
theorem Memory.wf_writeBytes (bs : List Byte) : ∀ (m : Memory) (k : Nat), m.wf = true →
    (m.writeBytes k bs).wf = true := by
  induction bs with
  | nil => intro m k h; exact h
  | cons b bs ih => intro m k h; exact ih _ _ (Memory.wf_set m k b h)

/-- Reading one byte after bytes were stored: the stored byte inside them, as before outside. -/
theorem Memory.get_writeBytes (bs : List Byte) : ∀ (m : Memory) (k q : Nat),
    (m.writeBytes k bs).get q = if k ≤ q then (bs[q - k]?).getD (m.get q) else m.get q := by
  induction bs with
  | nil => intro m k q; simp [Memory.writeBytes]
  | cons b bs ih =>
    intro m k q
    rw [Memory.writeBytes, ih, Memory.get_set]
    rcases Nat.lt_trichotomy q k with hlt | heq | hgt
    · have h1 : ¬ k + 1 ≤ q := by omega
      have h2 : ¬ k ≤ q := by omega
      have h3 : q ≠ k := by omega
      simp [h1, h2, h3]
    · subst heq
      have h1 : ¬ q + 1 ≤ q := by omega
      simp [h1]
    · have h1 : k + 1 ≤ q := by omega
      have h2 : k ≤ q := by omega
      have h3 : q ≠ k := by omega
      obtain ⟨j, hj⟩ : ∃ j, q - k = j + 1 := ⟨q - k - 1, by omega⟩
      have h4 : q - (k + 1) = j := by omega
      simp [h1, h2, h3, hj, h4]

/-- A cell of memory after bytes were stored is one of theirs or an old one. -/
theorem Memory.mem_writeBytes (bs : List Byte) : ∀ (m : Memory) (k : Nat) (p : Nat × Byte),
    p ∈ m.writeBytes k bs → p ∈ m ∨ (k ≤ p.1 ∧ p.1 < k + bs.length) := by
  induction bs with
  | nil => intro m k p h; exact .inl h
  | cons b bs ih =>
    intro m k p h
    rcases ih _ _ p h with h | ⟨h1, h2⟩
    · rcases Cells.mem_set _ h with rfl | h
      · exact .inr (by simp)
      · exact .inl h
    · refine .inr ⟨by omega, ?_⟩
      simp only [List.length_cons]
      omega

/-- Reading back the bytes just stored. -/
theorem Memory.readBytes_eq_map (m : Memory) (n : Nat) : ∀ k : Nat,
    m.readBytes k n = (List.range n).map (fun j => m.get (k + j)) := by
  induction n with
  | zero => intro k; rfl
  | succ n ih =>
    intro k
    rw [Memory.readBytes, ih, List.range_succ_eq_map]
    simp [Function.comp_def, Nat.add_assoc, Nat.add_comm 1]

end Sys2Proof.Machine
end

