-- ==== Sys2Proof/Laws/Encoding.lean ====
section
/-! SUPPORT. Bit fields of words built by `place`, the fields of each form's word, and the bits each form fixes. -/

namespace Sys2Proof

/-! ### `field` and `place` -/

/-- Bit `i` of a field. -/
theorem getLsbD_field {m : Nat} (w : BitVec m) (lo n i : Nat) :
    (field w lo n).getLsbD i = (decide (i < n) && w.getLsbD (lo + i)) := by
  simp [field]

/-- Bit `i` of a placed field. -/
theorem getLsbD_place {m lo n : Nat} (f : BitVec n) (i : Nat) :
    (place m lo f).getLsbD i = (decide (i < m) && decide (lo ≤ i) && f.getLsbD (i - lo)) := by
  by_cases h : i < m
  · by_cases h2 : lo ≤ i
    · simp [place, h, h2, Nat.not_lt.2 h2]
    · simp [place, h, h2, Nat.not_le.1 h2]
  · rw [BitVec.getLsbD_of_ge _ _ (by omega)]
    simp [h]

/-- A field of an OR. -/
theorem field_or {m : Nat} (a b : BitVec m) (lo n : Nat) : field (a ||| b) lo n = field a lo n ||| field b lo n := by
  apply BitVec.eq_of_getLsbD_eq
  intro i _
  simp only [getLsbD_field, BitVec.getLsbD_or, Bool.and_or_distrib_left]

/-- A field inside a placed field is a field of it. -/
theorem field_place_inside {m lo n lo' n' : Nat} (f : BitVec n) (h1 : lo ≤ lo') (h2 : lo' + n' ≤ lo + n)
    (h3 : lo + n ≤ m) : field (place m lo f) lo' n' = field f (lo' - lo) n' := by
  apply BitVec.eq_of_getLsbD_eq
  intro i hi
  have a1 : lo' + i < m := by omega
  have a2 : lo ≤ lo' + i := by omega
  have a3 : lo' + i - lo = lo' - lo + i := by omega
  simp only [getLsbD_field, getLsbD_place, a1, a2, a3, hi, decide_true, Bool.true_and]

/-- A field of the whole width is the word. -/
theorem field_whole {n : Nat} (f : BitVec n) : field f 0 n = f := by
  apply BitVec.eq_of_getLsbD_eq
  intro i hi
  simp only [getLsbD_field, hi, decide_true, Bool.true_and, Nat.zero_add]

/-- The field placed. -/
theorem field_place_same {m lo n : Nat} (f : BitVec n) (h : lo + n ≤ m) : field (place m lo f) lo n = f := by
  rw [field_place_inside f (Nat.le_refl _) (Nat.le_refl _) h, Nat.sub_self, field_whole]

/-- A field outside a placed field is 0. -/
theorem field_place_disjoint {m lo n lo' n' : Nat} (f : BitVec n) (h : lo' + n' ≤ lo ∨ lo + n ≤ lo') :
    field (place m lo f) lo' n' = 0#n' := by
  apply BitVec.eq_of_getLsbD_eq
  intro i hi
  rw [getLsbD_field, getLsbD_place]
  rcases h with h | h
  · have : ¬ lo ≤ lo' + i := by omega
    simp [this]
  · rw [BitVec.getLsbD_of_ge f _ (by omega)]
    simp

/-! ### The condition codes -/

/-- The code of a condition decodes to it. -/
@[simp] theorem Cond.ofCode_code (c : Cond) : Cond.ofCode c.code = c := by cases c <;> rfl

/-- A condition's code inside a 5-bit field. -/
@[simp] theorem Cond.field_code (c : Cond) : field (c.code.setWidth 5) 0 4 = c.code := by cases c <;> rfl

/-! ### Register numbers of the compressed forms -/

/-- A register below 16 is given back by its 4-bit field. -/
theorem lowRegOf_field {r : Reg} (h : lowReg r = true) : lowRegOf (field r 0 4) = r := by
  revert h
  revert r
  decide

/-! ### The fields of an SP-Form word -/

section
variable (func6 : BitVec 6) (rd ra rb : BitVec 5) (cu : Bool)

theorem spWord_opcode : field (spWord func6 rd ra rb cu) 27 5 = 0#5 := by
  simp [spWord, field_or, field_place_same, field_place_disjoint]
theorem spWord_rd : field (spWord func6 rd ra rb cu) 20 5 = rd := by
  simp [spWord, field_or, field_place_same, field_place_disjoint]
theorem spWord_ra : field (spWord func6 rd ra rb cu) 15 5 = ra := by
  simp [spWord, field_or, field_place_same, field_place_disjoint]
theorem spWord_rb : field (spWord func6 rd ra rb cu) 10 5 = rb := by
  simp [spWord, field_or, field_place_same, field_place_disjoint]
theorem spWord_cond : field (spWord func6 rd ra rb cu) 10 4 = field rb 0 4 := by
  simp [spWord, field_or, field_place_disjoint, field_place_inside]
theorem spWord_sel : field (spWord func6 rd ra rb cu) 10 2 = field rb 0 2 := by
  simp [spWord, field_or, field_place_disjoint, field_place_inside]
theorem spWord_func6 : field (spWord func6 rd ra rb cu) 1 6 = func6 := by
  simp [spWord, field_or, field_place_same, field_place_disjoint]
theorem spWord_cu : (spWord func6 rd ra rb cu).getLsbD 0 = cu := by
  simp only [spWord, BitVec.getLsbD_or, getLsbD_place]
  simp

/-- The bits an SP-Form row fixes: the opcode and func6. -/
theorem spWord_fixed : spWord func6 rd ra rb cu &&& 0xF800007E#32 = place 32 1 func6 := by
  apply BitVec.eq_of_getLsbD_eq
  intro i hi
  interval_cases i <;>
    (simp only [spWord, BitVec.getLsbD_and, BitVec.getLsbD_or, getLsbD_place]; simp)

/-- The bits the rows of `br` and `brl` fix: the link bit too. -/
theorem spWord_fixed_link :
    spWord func6 rd ra rb cu &&& 0xF800007F#32 = place 32 1 func6 ||| place 32 0 (BitVec.ofBool cu) := by
  apply BitVec.eq_of_getLsbD_eq
  intro i hi
  interval_cases i <;>
    (simp only [spWord, BitVec.getLsbD_and, BitVec.getLsbD_or, getLsbD_place]; simp)

/-- The bits the rows of the custom-engine moves fix: the selector too. -/
theorem spWord_fixed_sel :
    spWord func6 rd ra rb cu &&& 0xF8000C7E#32 = place 32 1 func6 ||| place 32 10 (field rb 0 2) := by
  apply BitVec.eq_of_getLsbD_eq
  intro i hi
  interval_cases i <;>
    (simp only [spWord, BitVec.getLsbD_and, BitVec.getLsbD_or, getLsbD_place, getLsbD_field]; simp)

end

/-! ### The other 32-bit forms -/

section
variable (op : BitVec 5) (func3 : BitVec 3) (rd ra : Reg) (cu : Bool)

/-- The bits an I-Form row fixes: the opcode and func3. -/
theorem iWord_fixed (imm : BitVec 16) :
    iWord op func3 rd imm cu &&& 0xF80E0000#32 = place 32 27 op ||| place 32 17 func3 := by
  apply BitVec.eq_of_getLsbD_eq
  intro i hi
  interval_cases i <;>
    (simp only [iWord, BitVec.getLsbD_and, BitVec.getLsbD_or, getLsbD_place]; simp)

/-- The bits a J-Form row fixes: the opcode and the link bit. -/
theorem jWord_fixed (disp : BitVec 24) (lk : Bool) :
    jWord disp lk &&& 0xF8000001#32 = 0x10000000#32 ||| place 32 0 (BitVec.ofBool lk) := by
  apply BitVec.eq_of_getLsbD_eq
  intro i hi
  interval_cases i <;>
    (simp only [jWord, BitVec.getLsbD_and, BitVec.getLsbD_or, getLsbD_place]; simp)

/-- The bits a B-Form row fixes: the opcode and the link bit. -/
theorem bWord_fixed (c : Cond) (disp : BitVec 22) (lk : Bool) :
    bWord c disp lk &&& 0xF8000001#32 = 0x20000000#32 ||| place 32 0 (BitVec.ofBool lk) := by
  apply BitVec.eq_of_getLsbD_eq
  intro i hi
  interval_cases i <;>
    (simp only [bWord, BitVec.getLsbD_and, BitVec.getLsbD_or, getLsbD_place, getLsbD_field]; simp)

/-- The bits a RIX-Form row fixes: the opcode and func3. -/
theorem rixWord_fixed (imm : BitVec 12) :
    rixWord op func3 rd ra imm &&& 0xF8000007#32 = place 32 27 op ||| place 32 0 func3 := by
  apply BitVec.eq_of_getLsbD_eq
  intro i hi
  interval_cases i <;>
    (simp only [rixWord, BitVec.getLsbD_and, BitVec.getLsbD_or, getLsbD_place]; simp)

/-- The bits a Memory-Form row fixes: the opcode. -/
theorem memWord_fixed (imm : BitVec 15) :
    memWord func3 rd ra imm &&& 0xF8000000#32 = 0x80000000#32 ||| place 32 27 func3 := by
  apply BitVec.eq_of_getLsbD_eq
  intro i hi
  interval_cases i <;>
    (simp only [memWord, BitVec.getLsbD_and, BitVec.getLsbD_or, getLsbD_place]; simp)

end

/-! ### The compressed forms -/

section
variable (table : BitVec 4) (rd ra : Reg)

/-- The bits a C-RR row fixes: the table and func4. -/
theorem crrHalf_fixed (func4 : BitVec 4) :
    crrHalf table func4 rd ra &&& 0xF00F#16 = place 16 12 table ||| place 16 0 func4 := by
  apply BitVec.eq_of_getLsbD_eq
  intro i hi
  interval_cases i <;>
    (simp only [crrHalf, BitVec.getLsbD_and, BitVec.getLsbD_or, getLsbD_place, getLsbD_field]; simp)

/-- The bits a C-RI row fixes: the table and func3. -/
theorem criHalf_fixed (func3 : BitVec 3) (imm : BitVec 5) :
    criHalf table func3 rd imm &&& 0xF0E0#16 = place 16 12 table ||| place 16 5 func3 := by
  apply BitVec.eq_of_getLsbD_eq
  intro i hi
  interval_cases i <;>
    (simp only [criHalf, BitVec.getLsbD_and, BitVec.getLsbD_or, getLsbD_place, getLsbD_field]; simp)

/-- The bits the C-B row fixes: the table. -/
theorem cbHalf_fixed (c : Cond) (disp : BitVec 8) : cbHalf c disp &&& 0xF000#16 = 0xC000#16 := by
  apply BitVec.eq_of_getLsbD_eq
  intro i hi
  interval_cases i <;>
    (simp only [cbHalf, BitVec.getLsbD_and, BitVec.getLsbD_or, getLsbD_place]; simp)

/-- The bits a C-SP row fixes: the table and S. -/
theorem cspHalf_fixed (st : Bool) (imm : BitVec 7) :
    cspHalf st rd imm &&& 0xF080#16 = 0xF000#16 ||| place 16 7 (BitVec.ofBool st) := by
  apply BitVec.eq_of_getLsbD_eq
  intro i hi
  interval_cases i <;>
    (simp only [cspHalf, BitVec.getLsbD_and, BitVec.getLsbD_or, getLsbD_place, getLsbD_field]; simp)

end

/-! ### The fields of the other forms -/

section
variable (op : BitVec 5) (func3 : BitVec 3) (rd ra : Reg) (cu : Bool) (c : Cond) (imm16 : BitVec 16)
  (imm12 : BitVec 12) (imm15 : BitVec 15) (disp24 : BitVec 24) (disp22 : BitVec 22)

theorem iWord_opcode : field (iWord op func3 rd imm16 cu) 27 5 = op := by
  simp [iWord, field_or, field_place_same, field_place_disjoint]
theorem iWord_rd : field (iWord op func3 rd imm16 cu) 20 5 = rd := by
  simp [iWord, field_or, field_place_same, field_place_disjoint]
theorem iWord_func3 : field (iWord op func3 rd imm16 cu) 17 3 = func3 := by
  simp [iWord, field_or, field_place_same, field_place_disjoint]
theorem iWord_imm : field (iWord op func3 rd imm16 cu) 1 16 = imm16 := by
  simp [iWord, field_or, field_place_same, field_place_disjoint]
theorem iWord_link : (iWord op func3 rd imm16 cu).getLsbD 0 = cu := by
  simp only [iWord, BitVec.getLsbD_or, getLsbD_place]
  simp
theorem jWord_opcode : field (jWord disp24 cu) 27 5 = 2#5 := by
  simp [jWord, field_or, field_place_same, field_place_disjoint]
theorem jWord_disp : field (jWord disp24 cu) 1 24 = disp24 := by
  simp [jWord, field_or, field_place_same, field_place_disjoint]
theorem jWord_link : (jWord disp24 cu).getLsbD 0 = cu := by
  simp only [jWord, BitVec.getLsbD_or, getLsbD_place]
  simp
theorem bWord_opcode : field (bWord c disp22 cu) 27 5 = 4#5 := by
  simp [bWord, field_or, field_place_same, field_place_disjoint]
theorem bWord_high : field (bWord c disp22 cu) 13 14 = field disp22 8 14 := by
  simp [bWord, field_or, field_place_same, field_place_disjoint]
theorem bWord_cond : field (bWord c disp22 cu) 9 4 = c.code := by
  simp [bWord, field_or, field_place_same, field_place_disjoint]
theorem bWord_low : field (bWord c disp22 cu) 1 8 = field disp22 0 8 := by
  simp [bWord, field_or, field_place_same, field_place_disjoint]
theorem bWord_link : (bWord c disp22 cu).getLsbD 0 = cu := by
  simp only [bWord, BitVec.getLsbD_or, getLsbD_place]
  simp
theorem rixWord_opcode : field (rixWord op func3 rd ra imm12) 27 5 = op := by
  simp [rixWord, field_or, field_place_same, field_place_disjoint]
theorem rixWord_rd : field (rixWord op func3 rd ra imm12) 20 5 = rd := by
  simp [rixWord, field_or, field_place_same, field_place_disjoint]
theorem rixWord_ra : field (rixWord op func3 rd ra imm12) 15 5 = ra := by
  simp [rixWord, field_or, field_place_same, field_place_disjoint]
theorem rixWord_imm : field (rixWord op func3 rd ra imm12) 3 12 = imm12 := by
  simp [rixWord, field_or, field_place_same, field_place_disjoint]
theorem rixWord_func3 : field (rixWord op func3 rd ra imm12) 0 3 = func3 := by
  simp [rixWord, field_or, field_place_same, field_place_disjoint]
theorem memWord_func3 : field (memWord func3 rd ra imm15) 27 3 = func3 := by
  simp [memWord, field_or, field_place_same, field_place_disjoint]
theorem memWord_high : field (memWord func3 rd ra imm15) 30 2 = 2#2 := by
  simp [memWord, field_or, field_place_same, field_place_disjoint]
theorem memWord_rd : field (memWord func3 rd ra imm15) 20 5 = rd := by
  simp [memWord, field_or, field_place_same, field_place_disjoint]
theorem memWord_ra : field (memWord func3 rd ra imm15) 15 5 = ra := by
  simp [memWord, field_or, field_place_same, field_place_disjoint]
theorem memWord_imm : field (memWord func3 rd ra imm15) 0 15 = imm15 := by
  simp [memWord, field_or, field_place_same, field_place_disjoint]

/-- The two parts of a B-Form displacement make it whole. -/
theorem disp22_parts : place 22 8 (field disp22 8 14) ||| place 22 0 (field disp22 0 8) = disp22 := by
  apply BitVec.eq_of_getLsbD_eq
  intro i hi
  rw [BitVec.getLsbD_or]
  simp only [getLsbD_place, getLsbD_field]
  by_cases h : i < 8
  · have h2 : ¬ 8 ≤ i := by omega
    simp [hi, h, h2]
  · have h2 : 8 ≤ i := by omega
    have h3 : i - 8 < 14 := by omega
    have h4 : 8 + (i - 8) = i := by omega
    simp [hi, h, h2, h3, h4]

end

/-! ### The fields of the compressed halfwords -/

section
variable (table func4 : BitVec 4) (func3 : BitVec 3) (rd ra : Reg) (c : Cond) (imm5 : BitVec 5) (imm7 : BitVec 7)
  (disp8 : BitVec 8) (st : Bool) (h next : Half)

theorem crrHalf_table : field (crrHalf table func4 rd ra) 12 4 = table := by
  simp [crrHalf, field_or, field_place_same, field_place_disjoint]
theorem crrHalf_rd : field (crrHalf table func4 rd ra) 8 4 = field rd 0 4 := by
  simp [crrHalf, field_or, field_place_same, field_place_disjoint]
theorem crrHalf_ra : field (crrHalf table func4 rd ra) 4 4 = field ra 0 4 := by
  simp [crrHalf, field_or, field_place_same, field_place_disjoint]
theorem crrHalf_func4 : field (crrHalf table func4 rd ra) 0 4 = func4 := by
  simp [crrHalf, field_or, field_place_same, field_place_disjoint]
theorem criHalf_table : field (criHalf table func3 rd imm5) 12 4 = table := by
  simp [criHalf, field_or, field_place_same, field_place_disjoint]
theorem criHalf_rd : field (criHalf table func3 rd imm5) 8 4 = field rd 0 4 := by
  simp [criHalf, field_or, field_place_same, field_place_disjoint]
theorem criHalf_func3 : field (criHalf table func3 rd imm5) 5 3 = func3 := by
  simp [criHalf, field_or, field_place_same, field_place_disjoint]
theorem criHalf_imm : field (criHalf table func3 rd imm5) 0 5 = imm5 := by
  simp [criHalf, field_or, field_place_same, field_place_disjoint]
theorem cbHalf_table : field (cbHalf c disp8) 12 4 = 0xC#4 := by
  simp [cbHalf, field_or, field_place_same, field_place_disjoint]
theorem cbHalf_cond : field (cbHalf c disp8) 8 4 = c.code := by
  simp [cbHalf, field_or, field_place_same, field_place_disjoint]
theorem cbHalf_disp : field (cbHalf c disp8) 0 8 = disp8 := by
  simp [cbHalf, field_or, field_place_same, field_place_disjoint]
theorem cspHalf_table : field (cspHalf st rd imm7) 12 4 = 0xF#4 := by
  simp [cspHalf, field_or, field_place_same, field_place_disjoint]
theorem cspHalf_rd : field (cspHalf st rd imm7) 8 4 = field rd 0 4 := by
  simp [cspHalf, field_or, field_place_same, field_place_disjoint]
theorem cspHalf_imm : field (cspHalf st rd imm7) 0 7 = imm7 := by
  simp [cspHalf, field_or, field_place_same, field_place_disjoint]
theorem cspHalf_store : (cspHalf st rd imm7).getLsbD 7 = st := by
  simp only [cspHalf, BitVec.getLsbD_or, getLsbD_place]
  simp
/-- The low halfword of a compressed instruction's fetched word is its halfword. -/
theorem fetched_low : field ((Code.short h).fetched next) 0 16 = h := by
  simp [Code.fetched, field_or, field_place_same, field_place_disjoint]
/-- The high halfword of a compressed instruction's fetched word is the halfword that follows it. -/
theorem fetched_high : field ((Code.short h).fetched next) 16 16 = next := by
  simp [Code.fetched, field_or, field_place_same, field_place_disjoint]

end

end Sys2Proof
end

