-- ==== Sys2Proof/Laws/State.lean ====
section
/-! SUPPORT. One lemma per field per update of the state, so that no proof unfolds a record update. -/

namespace Sys2Proof.Machine

variable (s : State)

/-! ### setFlags -/

@[simp] theorem State.setFlags_gpr (f : Flags) : (s.setFlags f).gpr = s.gpr := rfl
@[simp] theorem State.setFlags_pc (f : Flags) : (s.setFlags f).pc = s.pc := rfl
@[simp] theorem State.setFlags_flags (f : Flags) : (s.setFlags f).flags = f := rfl
@[simp] theorem State.setFlags_sr (f : Flags) : (s.setFlags f).sr = s.sr := rfl
@[simp] theorem State.setFlags_cr (f : Flags) : (s.setFlags f).cr = s.cr := rfl
@[simp] theorem State.setFlags_cel (f : Flags) : (s.setFlags f).cel = s.cel := rfl
@[simp] theorem State.setFlags_ceh (f : Flags) : (s.setFlags f).ceh = s.ceh := rfl
@[simp] theorem State.setFlags_cycles (f : Flags) : (s.setFlags f).cycles = s.cycles := rfl
@[simp] theorem State.setFlags_instructions (f : Flags) : (s.setFlags f).instructions = s.instructions := rfl
@[simp] theorem State.setFlags_halted (f : Flags) : (s.setFlags f).halted = s.halted := rfl
@[simp] theorem State.setFlags_faultCount (f : Flags) : (s.setFlags f).faultCount = s.faultCount := rfl
@[simp] theorem State.setFlags_initialized (f : Flags) : (s.setFlags f).initialized = s.initialized := rfl
@[simp] theorem State.setFlags_miuAttached (f : Flags) : (s.setFlags f).miuAttached = s.miuAttached := rfl
@[simp] theorem State.setFlags_paused (f : Flags) : (s.setFlags f).paused = s.paused := rfl
@[simp] theorem State.setFlags_breakpoints (f : Flags) : (s.setFlags f).breakpoints = s.breakpoints := rfl
@[simp] theorem State.setFlags_intc (f : Flags) : (s.setFlags f).intc = s.intc := rfl
@[simp] theorem State.setFlags_segments (f : Flags) : (s.setFlags f).segments = s.segments := rfl
@[simp] theorem State.setFlags_mem (f : Flags) : (s.setFlags f).mem = s.mem := rfl
@[simp] theorem State.setFlags_draws (f : Flags) : (s.setFlags f).draws = s.draws := rfl

/-! ### setCe -/

@[simp] theorem State.setCe_gpr (lo hi : Word) : (s.setCe lo hi).gpr = s.gpr := rfl
@[simp] theorem State.setCe_pc (lo hi : Word) : (s.setCe lo hi).pc = s.pc := rfl
@[simp] theorem State.setCe_flags (lo hi : Word) : (s.setCe lo hi).flags = s.flags := rfl
@[simp] theorem State.setCe_sr (lo hi : Word) : (s.setCe lo hi).sr = s.sr := rfl
@[simp] theorem State.setCe_cr (lo hi : Word) : (s.setCe lo hi).cr = s.cr := rfl
@[simp] theorem State.setCe_cel (lo hi : Word) : (s.setCe lo hi).cel = lo := rfl
@[simp] theorem State.setCe_ceh (lo hi : Word) : (s.setCe lo hi).ceh = hi := rfl
@[simp] theorem State.setCe_cycles (lo hi : Word) : (s.setCe lo hi).cycles = s.cycles := rfl
@[simp] theorem State.setCe_instructions (lo hi : Word) : (s.setCe lo hi).instructions = s.instructions := rfl
@[simp] theorem State.setCe_halted (lo hi : Word) : (s.setCe lo hi).halted = s.halted := rfl
@[simp] theorem State.setCe_faultCount (lo hi : Word) : (s.setCe lo hi).faultCount = s.faultCount := rfl
@[simp] theorem State.setCe_initialized (lo hi : Word) : (s.setCe lo hi).initialized = s.initialized := rfl
@[simp] theorem State.setCe_miuAttached (lo hi : Word) : (s.setCe lo hi).miuAttached = s.miuAttached := rfl
@[simp] theorem State.setCe_paused (lo hi : Word) : (s.setCe lo hi).paused = s.paused := rfl
@[simp] theorem State.setCe_breakpoints (lo hi : Word) : (s.setCe lo hi).breakpoints = s.breakpoints := rfl
@[simp] theorem State.setCe_intc (lo hi : Word) : (s.setCe lo hi).intc = s.intc := rfl
@[simp] theorem State.setCe_segments (lo hi : Word) : (s.setCe lo hi).segments = s.segments := rfl
@[simp] theorem State.setCe_mem (lo hi : Word) : (s.setCe lo hi).mem = s.mem := rfl
@[simp] theorem State.setCe_draws (lo hi : Word) : (s.setCe lo hi).draws = s.draws := rfl

/-! ### setCr -/

@[simp] theorem State.setCr_gpr (n : SpecialIdx) (v : Word) : (s.setCr n v).gpr = s.gpr := rfl
@[simp] theorem State.setCr_pc (n : SpecialIdx) (v : Word) : (s.setCr n v).pc = s.pc := rfl
@[simp] theorem State.setCr_flags (n : SpecialIdx) (v : Word) : (s.setCr n v).flags = s.flags := rfl
@[simp] theorem State.setCr_sr (n : SpecialIdx) (v : Word) : (s.setCr n v).sr = s.sr := rfl
@[simp] theorem State.setCr_cr (n : SpecialIdx) (v : Word) : (s.setCr n v).cr = s.cr.set n.toNat v n.isLt := rfl
@[simp] theorem State.setCr_cel (n : SpecialIdx) (v : Word) : (s.setCr n v).cel = s.cel := rfl
@[simp] theorem State.setCr_ceh (n : SpecialIdx) (v : Word) : (s.setCr n v).ceh = s.ceh := rfl
@[simp] theorem State.setCr_cycles (n : SpecialIdx) (v : Word) : (s.setCr n v).cycles = s.cycles := rfl
@[simp] theorem State.setCr_instructions (n : SpecialIdx) (v : Word) : (s.setCr n v).instructions = s.instructions := rfl
@[simp] theorem State.setCr_halted (n : SpecialIdx) (v : Word) : (s.setCr n v).halted = s.halted := rfl
@[simp] theorem State.setCr_faultCount (n : SpecialIdx) (v : Word) : (s.setCr n v).faultCount = s.faultCount := rfl
@[simp] theorem State.setCr_initialized (n : SpecialIdx) (v : Word) : (s.setCr n v).initialized = s.initialized := rfl
@[simp] theorem State.setCr_miuAttached (n : SpecialIdx) (v : Word) : (s.setCr n v).miuAttached = s.miuAttached := rfl
@[simp] theorem State.setCr_paused (n : SpecialIdx) (v : Word) : (s.setCr n v).paused = s.paused := rfl
@[simp] theorem State.setCr_breakpoints (n : SpecialIdx) (v : Word) : (s.setCr n v).breakpoints = s.breakpoints := rfl
@[simp] theorem State.setCr_intc (n : SpecialIdx) (v : Word) : (s.setCr n v).intc = s.intc := rfl
@[simp] theorem State.setCr_segments (n : SpecialIdx) (v : Word) : (s.setCr n v).segments = s.segments := rfl
@[simp] theorem State.setCr_mem (n : SpecialIdx) (v : Word) : (s.setCr n v).mem = s.mem := rfl
@[simp] theorem State.setCr_draws (n : SpecialIdx) (v : Word) : (s.setCr n v).draws = s.draws := rfl

/-! ### jump -/

@[simp] theorem State.jump_gpr (a : Word) : (s.jump a).gpr = s.gpr := rfl
@[simp] theorem State.jump_pc (a : Word) : (s.jump a).pc = a := rfl
@[simp] theorem State.jump_flags (a : Word) : (s.jump a).flags = s.flags := rfl
@[simp] theorem State.jump_sr (a : Word) : (s.jump a).sr = s.sr := rfl
@[simp] theorem State.jump_cr (a : Word) : (s.jump a).cr = s.cr := rfl
@[simp] theorem State.jump_cel (a : Word) : (s.jump a).cel = s.cel := rfl
@[simp] theorem State.jump_ceh (a : Word) : (s.jump a).ceh = s.ceh := rfl
@[simp] theorem State.jump_cycles (a : Word) : (s.jump a).cycles = s.cycles := rfl
@[simp] theorem State.jump_instructions (a : Word) : (s.jump a).instructions = s.instructions := rfl
@[simp] theorem State.jump_halted (a : Word) : (s.jump a).halted = s.halted := rfl
@[simp] theorem State.jump_faultCount (a : Word) : (s.jump a).faultCount = s.faultCount := rfl
@[simp] theorem State.jump_initialized (a : Word) : (s.jump a).initialized = s.initialized := rfl
@[simp] theorem State.jump_miuAttached (a : Word) : (s.jump a).miuAttached = s.miuAttached := rfl
@[simp] theorem State.jump_paused (a : Word) : (s.jump a).paused = s.paused := rfl
@[simp] theorem State.jump_breakpoints (a : Word) : (s.jump a).breakpoints = s.breakpoints := rfl
@[simp] theorem State.jump_intc (a : Word) : (s.jump a).intc = s.intc := rfl
@[simp] theorem State.jump_segments (a : Word) : (s.jump a).segments = s.segments := rfl
@[simp] theorem State.jump_mem (a : Word) : (s.jump a).mem = s.mem := rfl
@[simp] theorem State.jump_draws (a : Word) : (s.jump a).draws = s.draws := rfl

/-! ### advance -/

@[simp] theorem State.advance_gpr (d : Word) : (s.advance d).gpr = s.gpr := rfl
@[simp] theorem State.advance_pc (d : Word) : (s.advance d).pc = s.pc + d := rfl
@[simp] theorem State.advance_flags (d : Word) : (s.advance d).flags = s.flags := rfl
@[simp] theorem State.advance_sr (d : Word) : (s.advance d).sr = s.sr := rfl
@[simp] theorem State.advance_cr (d : Word) : (s.advance d).cr = s.cr := rfl
@[simp] theorem State.advance_cel (d : Word) : (s.advance d).cel = s.cel := rfl
@[simp] theorem State.advance_ceh (d : Word) : (s.advance d).ceh = s.ceh := rfl
@[simp] theorem State.advance_cycles (d : Word) : (s.advance d).cycles = s.cycles := rfl
@[simp] theorem State.advance_instructions (d : Word) : (s.advance d).instructions = s.instructions := rfl
@[simp] theorem State.advance_halted (d : Word) : (s.advance d).halted = s.halted := rfl
@[simp] theorem State.advance_faultCount (d : Word) : (s.advance d).faultCount = s.faultCount := rfl
@[simp] theorem State.advance_initialized (d : Word) : (s.advance d).initialized = s.initialized := rfl
@[simp] theorem State.advance_miuAttached (d : Word) : (s.advance d).miuAttached = s.miuAttached := rfl
@[simp] theorem State.advance_paused (d : Word) : (s.advance d).paused = s.paused := rfl
@[simp] theorem State.advance_breakpoints (d : Word) : (s.advance d).breakpoints = s.breakpoints := rfl
@[simp] theorem State.advance_intc (d : Word) : (s.advance d).intc = s.intc := rfl
@[simp] theorem State.advance_segments (d : Word) : (s.advance d).segments = s.segments := rfl
@[simp] theorem State.advance_mem (d : Word) : (s.advance d).mem = s.mem := rfl
@[simp] theorem State.advance_draws (d : Word) : (s.advance d).draws = s.draws := rfl

/-! ### loadBytes -/

@[simp] theorem State.loadBytes_gpr (d : Dense) (off : Nat) (bs : List Byte) : (s.loadBytes d off bs).gpr = s.gpr := rfl
@[simp] theorem State.loadBytes_pc (d : Dense) (off : Nat) (bs : List Byte) : (s.loadBytes d off bs).pc = s.pc := rfl
@[simp] theorem State.loadBytes_flags (d : Dense) (off : Nat) (bs : List Byte) : (s.loadBytes d off bs).flags = s.flags := rfl
@[simp] theorem State.loadBytes_sr (d : Dense) (off : Nat) (bs : List Byte) : (s.loadBytes d off bs).sr = s.sr := rfl
@[simp] theorem State.loadBytes_cr (d : Dense) (off : Nat) (bs : List Byte) : (s.loadBytes d off bs).cr = s.cr := rfl
@[simp] theorem State.loadBytes_cel (d : Dense) (off : Nat) (bs : List Byte) : (s.loadBytes d off bs).cel = s.cel := rfl
@[simp] theorem State.loadBytes_ceh (d : Dense) (off : Nat) (bs : List Byte) : (s.loadBytes d off bs).ceh = s.ceh := rfl
@[simp] theorem State.loadBytes_cycles (d : Dense) (off : Nat) (bs : List Byte) : (s.loadBytes d off bs).cycles = s.cycles := rfl
@[simp] theorem State.loadBytes_instructions (d : Dense) (off : Nat) (bs : List Byte) : (s.loadBytes d off bs).instructions = s.instructions := rfl
@[simp] theorem State.loadBytes_halted (d : Dense) (off : Nat) (bs : List Byte) : (s.loadBytes d off bs).halted = s.halted := rfl
@[simp] theorem State.loadBytes_faultCount (d : Dense) (off : Nat) (bs : List Byte) : (s.loadBytes d off bs).faultCount = s.faultCount := rfl
@[simp] theorem State.loadBytes_initialized (d : Dense) (off : Nat) (bs : List Byte) : (s.loadBytes d off bs).initialized = s.initialized := rfl
@[simp] theorem State.loadBytes_miuAttached (d : Dense) (off : Nat) (bs : List Byte) : (s.loadBytes d off bs).miuAttached = s.miuAttached := rfl
@[simp] theorem State.loadBytes_paused (d : Dense) (off : Nat) (bs : List Byte) : (s.loadBytes d off bs).paused = s.paused := rfl
@[simp] theorem State.loadBytes_breakpoints (d : Dense) (off : Nat) (bs : List Byte) : (s.loadBytes d off bs).breakpoints = s.breakpoints := rfl
@[simp] theorem State.loadBytes_intc (d : Dense) (off : Nat) (bs : List Byte) : (s.loadBytes d off bs).intc = s.intc := rfl
@[simp] theorem State.loadBytes_segments (d : Dense) (off : Nat) (bs : List Byte) : (s.loadBytes d off bs).segments = s.segments := rfl
@[simp] theorem State.loadBytes_mem (d : Dense) (off : Nat) (bs : List Byte) : (s.loadBytes d off bs).mem = s.mem.writeBytes (d.home + off) bs := rfl
@[simp] theorem State.loadBytes_draws (d : Dense) (off : Nat) (bs : List Byte) : (s.loadBytes d off bs).draws = s.draws := rfl

/-! ### stepFault -/

@[simp] theorem State.stepFault_gpr : (s.stepFault).gpr = s.gpr := rfl
@[simp] theorem State.stepFault_pc : (s.stepFault).pc = s.pc := rfl
@[simp] theorem State.stepFault_flags : (s.stepFault).flags = s.flags := rfl
@[simp] theorem State.stepFault_sr : (s.stepFault).sr = s.sr := rfl
@[simp] theorem State.stepFault_cr : (s.stepFault).cr = s.cr := rfl
@[simp] theorem State.stepFault_cel : (s.stepFault).cel = s.cel := rfl
@[simp] theorem State.stepFault_ceh : (s.stepFault).ceh = s.ceh := rfl
@[simp] theorem State.stepFault_cycles : (s.stepFault).cycles = s.cycles := rfl
@[simp] theorem State.stepFault_instructions : (s.stepFault).instructions = s.instructions := rfl
@[simp] theorem State.stepFault_halted : (s.stepFault).halted = (s.halted || decide (Config.faultLimit < s.faultCount + 1)) := rfl
@[simp] theorem State.stepFault_faultCount : (s.stepFault).faultCount = s.faultCount + 1 := rfl
@[simp] theorem State.stepFault_initialized : (s.stepFault).initialized = s.initialized := rfl
@[simp] theorem State.stepFault_miuAttached : (s.stepFault).miuAttached = s.miuAttached := rfl
@[simp] theorem State.stepFault_paused : (s.stepFault).paused = s.paused := rfl
@[simp] theorem State.stepFault_breakpoints : (s.stepFault).breakpoints = s.breakpoints := rfl
@[simp] theorem State.stepFault_intc : (s.stepFault).intc = s.intc := rfl
@[simp] theorem State.stepFault_segments : (s.stepFault).segments = s.segments := rfl
@[simp] theorem State.stepFault_mem : (s.stepFault).mem = s.mem := rfl
@[simp] theorem State.stepFault_draws : (s.stepFault).draws = s.draws := rfl

/-! ### retire -/

@[simp] theorem State.retire_gpr : (s.retire).gpr = s.gpr := rfl
@[simp] theorem State.retire_pc : (s.retire).pc = s.pc := rfl
@[simp] theorem State.retire_flags : (s.retire).flags = s.flags := rfl
@[simp] theorem State.retire_sr : (s.retire).sr = s.sr := rfl
@[simp] theorem State.retire_cr : (s.retire).cr = s.cr := rfl
@[simp] theorem State.retire_cel : (s.retire).cel = s.cel := rfl
@[simp] theorem State.retire_ceh : (s.retire).ceh = s.ceh := rfl
@[simp] theorem State.retire_cycles : (s.retire).cycles = s.cycles + 1#64 := rfl
@[simp] theorem State.retire_instructions : (s.retire).instructions = s.instructions + 1#64 := rfl
@[simp] theorem State.retire_halted : (s.retire).halted = s.halted := rfl
@[simp] theorem State.retire_faultCount : (s.retire).faultCount = 0 := rfl
@[simp] theorem State.retire_initialized : (s.retire).initialized = s.initialized := rfl
@[simp] theorem State.retire_miuAttached : (s.retire).miuAttached = s.miuAttached := rfl
@[simp] theorem State.retire_paused : (s.retire).paused = s.paused := rfl
@[simp] theorem State.retire_breakpoints : (s.retire).breakpoints = s.breakpoints := rfl
@[simp] theorem State.retire_intc : (s.retire).intc = s.intc := rfl
@[simp] theorem State.retire_segments : (s.retire).segments = s.segments := rfl
@[simp] theorem State.retire_mem : (s.retire).mem = s.mem := rfl
@[simp] theorem State.retire_draws : (s.retire).draws = s.draws := rfl

/-! ### setIntc -/

@[simp] theorem State.setIntc_gpr (c : Intc) : (s.setIntc c).gpr = s.gpr := rfl
@[simp] theorem State.setIntc_pc (c : Intc) : (s.setIntc c).pc = s.pc := rfl
@[simp] theorem State.setIntc_flags (c : Intc) : (s.setIntc c).flags = s.flags := rfl
@[simp] theorem State.setIntc_sr (c : Intc) : (s.setIntc c).sr = s.sr := rfl
@[simp] theorem State.setIntc_cr (c : Intc) : (s.setIntc c).cr = s.cr := rfl
@[simp] theorem State.setIntc_cel (c : Intc) : (s.setIntc c).cel = s.cel := rfl
@[simp] theorem State.setIntc_ceh (c : Intc) : (s.setIntc c).ceh = s.ceh := rfl
@[simp] theorem State.setIntc_cycles (c : Intc) : (s.setIntc c).cycles = s.cycles := rfl
@[simp] theorem State.setIntc_instructions (c : Intc) : (s.setIntc c).instructions = s.instructions := rfl
@[simp] theorem State.setIntc_halted (c : Intc) : (s.setIntc c).halted = s.halted := rfl
@[simp] theorem State.setIntc_faultCount (c : Intc) : (s.setIntc c).faultCount = s.faultCount := rfl
@[simp] theorem State.setIntc_initialized (c : Intc) : (s.setIntc c).initialized = s.initialized := rfl
@[simp] theorem State.setIntc_miuAttached (c : Intc) : (s.setIntc c).miuAttached = s.miuAttached := rfl
@[simp] theorem State.setIntc_paused (c : Intc) : (s.setIntc c).paused = s.paused := rfl
@[simp] theorem State.setIntc_breakpoints (c : Intc) : (s.setIntc c).breakpoints = s.breakpoints := rfl
@[simp] theorem State.setIntc_intc (c : Intc) : (s.setIntc c).intc = c := rfl
@[simp] theorem State.setIntc_segments (c : Intc) : (s.setIntc c).segments = s.segments := rfl
@[simp] theorem State.setIntc_mem (c : Intc) : (s.setIntc c).mem = s.mem := rfl
@[simp] theorem State.setIntc_draws (c : Intc) : (s.setIntc c).draws = s.draws := rfl

/-! ### setReg -/

@[simp] theorem State.setReg_pc (r : Reg) (v : Word) : (s.setReg r v).pc = s.pc := by
  unfold State.setReg; split <;> rfl
@[simp] theorem State.setReg_flags (r : Reg) (v : Word) : (s.setReg r v).flags = s.flags := by
  unfold State.setReg; split <;> rfl
@[simp] theorem State.setReg_sr (r : Reg) (v : Word) : (s.setReg r v).sr = s.sr := by
  unfold State.setReg; split <;> rfl
@[simp] theorem State.setReg_cr (r : Reg) (v : Word) : (s.setReg r v).cr = s.cr := by
  unfold State.setReg; split <;> rfl
@[simp] theorem State.setReg_cel (r : Reg) (v : Word) : (s.setReg r v).cel = s.cel := by
  unfold State.setReg; split <;> rfl
@[simp] theorem State.setReg_ceh (r : Reg) (v : Word) : (s.setReg r v).ceh = s.ceh := by
  unfold State.setReg; split <;> rfl
@[simp] theorem State.setReg_cycles (r : Reg) (v : Word) : (s.setReg r v).cycles = s.cycles := by
  unfold State.setReg; split <;> rfl
@[simp] theorem State.setReg_instructions (r : Reg) (v : Word) : (s.setReg r v).instructions = s.instructions := by
  unfold State.setReg; split <;> rfl
@[simp] theorem State.setReg_halted (r : Reg) (v : Word) : (s.setReg r v).halted = s.halted := by
  unfold State.setReg; split <;> rfl
@[simp] theorem State.setReg_faultCount (r : Reg) (v : Word) : (s.setReg r v).faultCount = s.faultCount := by
  unfold State.setReg; split <;> rfl
@[simp] theorem State.setReg_initialized (r : Reg) (v : Word) : (s.setReg r v).initialized = s.initialized := by
  unfold State.setReg; split <;> rfl
@[simp] theorem State.setReg_miuAttached (r : Reg) (v : Word) : (s.setReg r v).miuAttached = s.miuAttached := by
  unfold State.setReg; split <;> rfl
@[simp] theorem State.setReg_paused (r : Reg) (v : Word) : (s.setReg r v).paused = s.paused := by
  unfold State.setReg; split <;> rfl
@[simp] theorem State.setReg_breakpoints (r : Reg) (v : Word) : (s.setReg r v).breakpoints = s.breakpoints := by
  unfold State.setReg; split <;> rfl
@[simp] theorem State.setReg_intc (r : Reg) (v : Word) : (s.setReg r v).intc = s.intc := by
  unfold State.setReg; split <;> rfl
@[simp] theorem State.setReg_segments (r : Reg) (v : Word) : (s.setReg r v).segments = s.segments := by
  unfold State.setReg; split <;> rfl
@[simp] theorem State.setReg_mem (r : Reg) (v : Word) : (s.setReg r v).mem = s.mem := by
  unfold State.setReg; split <;> rfl
@[simp] theorem State.setReg_draws (r : Reg) (v : Word) : (s.setReg r v).draws = s.draws := by
  unfold State.setReg; split <;> rfl

/-! ### setSr -/

@[simp] theorem State.setSr_gpr (n : SpecialIdx) (v : Word) : (s.setSr n v).gpr = s.gpr := by
  unfold State.setSr; split <;> rfl
@[simp] theorem State.setSr_pc (n : SpecialIdx) (v : Word) : (s.setSr n v).pc = s.pc := by
  unfold State.setSr; split <;> rfl
@[simp] theorem State.setSr_cr (n : SpecialIdx) (v : Word) : (s.setSr n v).cr = s.cr := by
  unfold State.setSr; split <;> rfl
@[simp] theorem State.setSr_cel (n : SpecialIdx) (v : Word) : (s.setSr n v).cel = s.cel := by
  unfold State.setSr; split <;> rfl
@[simp] theorem State.setSr_ceh (n : SpecialIdx) (v : Word) : (s.setSr n v).ceh = s.ceh := by
  unfold State.setSr; split <;> rfl
@[simp] theorem State.setSr_cycles (n : SpecialIdx) (v : Word) : (s.setSr n v).cycles = s.cycles := by
  unfold State.setSr; split <;> rfl
@[simp] theorem State.setSr_instructions (n : SpecialIdx) (v : Word) : (s.setSr n v).instructions = s.instructions := by
  unfold State.setSr; split <;> rfl
@[simp] theorem State.setSr_halted (n : SpecialIdx) (v : Word) : (s.setSr n v).halted = s.halted := by
  unfold State.setSr; split <;> rfl
@[simp] theorem State.setSr_faultCount (n : SpecialIdx) (v : Word) : (s.setSr n v).faultCount = s.faultCount := by
  unfold State.setSr; split <;> rfl
@[simp] theorem State.setSr_initialized (n : SpecialIdx) (v : Word) : (s.setSr n v).initialized = s.initialized := by
  unfold State.setSr; split <;> rfl
@[simp] theorem State.setSr_miuAttached (n : SpecialIdx) (v : Word) : (s.setSr n v).miuAttached = s.miuAttached := by
  unfold State.setSr; split <;> rfl
@[simp] theorem State.setSr_paused (n : SpecialIdx) (v : Word) : (s.setSr n v).paused = s.paused := by
  unfold State.setSr; split <;> rfl
@[simp] theorem State.setSr_breakpoints (n : SpecialIdx) (v : Word) : (s.setSr n v).breakpoints = s.breakpoints := by
  unfold State.setSr; split <;> rfl
@[simp] theorem State.setSr_intc (n : SpecialIdx) (v : Word) : (s.setSr n v).intc = s.intc := by
  unfold State.setSr; split <;> rfl
@[simp] theorem State.setSr_segments (n : SpecialIdx) (v : Word) : (s.setSr n v).segments = s.segments := by
  unfold State.setSr; split <;> rfl
@[simp] theorem State.setSr_mem (n : SpecialIdx) (v : Word) : (s.setSr n v).mem = s.mem := by
  unfold State.setSr; split <;> rfl
@[simp] theorem State.setSr_draws (n : SpecialIdx) (v : Word) : (s.setSr n v).draws = s.draws := by
  unfold State.setSr; split <;> rfl

end Sys2Proof.Machine
end

