-- ==== Sys2Proof/Laws/Registers.lean ====
section
/-! SUPPORT. Reading registers after an update: general, system and control registers, and the flag view sr0. -/

namespace Sys2Proof.Machine

variable (s : State)

/-! ### General registers -/

@[simp] theorem State.getReg_zero : s.getReg 0#5 = 0#32 := by simp [State.getReg]

theorem State.getReg_of_gpr {s t : State} (h : t.gpr = s.gpr) (r : Reg) : t.getReg r = s.getReg r := by
  simp [State.getReg, h]

theorem Reg.index_inj {r q : Reg} (hr : r ≠ 0#5) (hq : q ≠ 0#5) (h : r.toNat - 1 = q.toNat - 1) : r = q := by
  apply BitVec.eq_of_toNat_eq
  have h1 : r.toNat ≠ 0 := fun h0 => hr (BitVec.eq_of_toNat_eq (by simpa using h0))
  have h2 : q.toNat ≠ 0 := fun h0 => hq (BitVec.eq_of_toNat_eq (by simpa using h0))
  omega

/-- What a register reads as after a write: the value in the register written unless it is r0, else as before. -/
theorem State.getReg_setReg (r q : Reg) (v : Word) :
    (s.setReg r v).getReg q = if q = r ∧ q ≠ 0#5 then v else s.getReg q := by
  unfold State.setReg State.getReg
  by_cases hr : r = 0#5
  · subst hr
    by_cases hq : q = 0#5 <;> simp [hq]
  · by_cases hq : q = 0#5
    · simp [hq]
    · by_cases h : q = r
      · simp [h, hr]
      · have hne : r.toNat - 1 ≠ q.toNat - 1 := fun e => h (Reg.index_inj hq hr e.symm)
        simp [hr, hq, h, hne]

@[simp] theorem State.getReg_setFlags (f : Flags) (r : Reg) : (s.setFlags f).getReg r = s.getReg r := rfl
@[simp] theorem State.getReg_jump (a : Word) (r : Reg) : (s.jump a).getReg r = s.getReg r := rfl
@[simp] theorem State.getReg_advance (d : Word) (r : Reg) : (s.advance d).getReg r = s.getReg r := rfl
@[simp] theorem State.getReg_setCe (lo hi : Word) (r : Reg) : (s.setCe lo hi).getReg r = s.getReg r := rfl
@[simp] theorem State.getReg_setCr (n : SpecialIdx) (v : Word) (r : Reg) : (s.setCr n v).getReg r = s.getReg r := rfl
@[simp] theorem State.getReg_setSr (n : SpecialIdx) (v : Word) (r : Reg) : (s.setSr n v).getReg r = s.getReg r := by
  unfold State.setSr; split <;> rfl

/-! ### Control registers -/

theorem State.getCr_of_cr {s t : State} (h : t.cr = s.cr) (n : SpecialIdx) : t.getCr n = s.getCr n := by
  simp [State.getCr, h]

/-- What a control register reads as after a write. -/
theorem State.getCr_setCr (n m : SpecialIdx) (v : Word) :
    (s.setCr n v).getCr m = if m = n then v else s.getCr m := by
  unfold State.setCr State.getCr
  by_cases h : m = n
  · simp [h]
  · have : n.toNat ≠ m.toNat := fun e => h (BitVec.eq_of_toNat_eq e.symm)
    simp [h, this]

@[simp] theorem State.getCr_setFlags (f : Flags) (n : SpecialIdx) : (s.setFlags f).getCr n = s.getCr n := rfl
@[simp] theorem State.getCr_jump (a : Word) (n : SpecialIdx) : (s.jump a).getCr n = s.getCr n := rfl
@[simp] theorem State.getCr_advance (d : Word) (n : SpecialIdx) : (s.advance d).getCr n = s.getCr n := rfl

/-! ### System registers -/

@[simp] theorem State.getSr_zero : s.getSr 0#5 = s.flags.pack := by simp [State.getSr]

/-- The flags after a write of a system register: a write to sr0 unpacks into them. -/
theorem State.setSr_flags (n : SpecialIdx) (v : Word) :
    (s.setSr n v).flags = if n = 0#5 then Flags.unpack v else s.flags := by
  unfold State.setSr; split <;> rfl

/-- What a system register other than sr0 reads as after a write. -/
theorem State.getSr_setSr (n m : SpecialIdx) (v : Word) (hm : m ≠ 0#5) :
    (s.setSr n v).getSr m = if m = n then v else s.getSr m := by
  unfold State.setSr State.getSr
  by_cases hn : n = 0#5
  · subst hn; simp [hm]
  · by_cases h : m = n
    · simp [h, hn]
    · have hne : n.toNat - 1 ≠ m.toNat - 1 := fun e => h (Reg.index_inj hm hn e.symm)
      simp [hm, hn, h, hne]

/-! ### The flag view -/

/-- Bit `i` of the packed flags: the five flags at their places, zero elsewhere. -/
theorem Flags.getLsbD_pack (f : Flags) (i : Nat) :
    f.pack.getLsbD i = if i = 31 then f.n else if i = 30 then f.z else if i = 29 then f.c
      else if i = 28 then f.v else if i = 0 then f.t else false := by
  obtain ⟨n, z, c, v, t⟩ := f
  by_cases h : i < 32
  · revert n z c v t
    interval_cases i <;> decide
  · rw [BitVec.getLsbD_of_ge _ _ (by omega)]
    have : i ≠ 31 ∧ i ≠ 30 ∧ i ≠ 29 ∧ i ≠ 28 ∧ i ≠ 0 := by omega
    simp [this]

end Sys2Proof.Machine
end

