-- ==== Sys2Proof/Laws/Ops.lean ====
section
/-! SUPPORT. What each shared operation can do, once: the MIU's reads and writes, taking an exception and returning from
one, and the shapes of the meanings. The proofs cite these instead of unfolding the operations. -/

namespace Sys2Proof.Machine

variable (s : State)

/-! ### Reads of memory -/

/-- A read leaves the state, or uses up one draw. -/
theorem State.memRead_cases (a : Word) (w : Width) :
    (s.memRead a w).2 = s ∨ (s.memRead a w).2 = { s with draws := s.draws + 1 } := by
  unfold State.memRead
  cases s.region a with
  | dense d => exact .inl rfl
  | mmio => dsimp only; split <;> simp
  | cdrom => exact .inr rfl
  | sink => exact .inl rfl

/-- A read of a dense region: no side effect, the little-endian bytes in bounds, 0 past the end. -/
theorem State.memRead_dense {a : Word} {d : Dense} (h : s.region a = .dense d) (w : Width) :
    s.memRead a w = (if offsetOf a + w.bytes ≤ d.size then leWord (s.mem.readBytes (d.home + offsetOf a) w.bytes)
      else 0#32, s) := by
  simp [State.memRead, h]

@[simp] theorem State.memRead_gpr (a : Word) (w : Width) : (s.memRead a w).2.gpr = s.gpr := by
  rcases s.memRead_cases a w with h | h <;> rw [h]
@[simp] theorem State.memRead_pc (a : Word) (w : Width) : (s.memRead a w).2.pc = s.pc := by
  rcases s.memRead_cases a w with h | h <;> rw [h]
@[simp] theorem State.memRead_flags (a : Word) (w : Width) : (s.memRead a w).2.flags = s.flags := by
  rcases s.memRead_cases a w with h | h <;> rw [h]
@[simp] theorem State.memRead_sr (a : Word) (w : Width) : (s.memRead a w).2.sr = s.sr := by
  rcases s.memRead_cases a w with h | h <;> rw [h]
@[simp] theorem State.memRead_cr (a : Word) (w : Width) : (s.memRead a w).2.cr = s.cr := by
  rcases s.memRead_cases a w with h | h <;> rw [h]
@[simp] theorem State.memRead_cel (a : Word) (w : Width) : (s.memRead a w).2.cel = s.cel := by
  rcases s.memRead_cases a w with h | h <;> rw [h]
@[simp] theorem State.memRead_ceh (a : Word) (w : Width) : (s.memRead a w).2.ceh = s.ceh := by
  rcases s.memRead_cases a w with h | h <;> rw [h]
@[simp] theorem State.memRead_cycles (a : Word) (w : Width) : (s.memRead a w).2.cycles = s.cycles := by
  rcases s.memRead_cases a w with h | h <;> rw [h]
@[simp] theorem State.memRead_instructions (a : Word) (w : Width) : (s.memRead a w).2.instructions = s.instructions := by
  rcases s.memRead_cases a w with h | h <;> rw [h]
@[simp] theorem State.memRead_halted (a : Word) (w : Width) : (s.memRead a w).2.halted = s.halted := by
  rcases s.memRead_cases a w with h | h <;> rw [h]
@[simp] theorem State.memRead_faultCount (a : Word) (w : Width) : (s.memRead a w).2.faultCount = s.faultCount := by
  rcases s.memRead_cases a w with h | h <;> rw [h]
@[simp] theorem State.memRead_initialized (a : Word) (w : Width) : (s.memRead a w).2.initialized = s.initialized := by
  rcases s.memRead_cases a w with h | h <;> rw [h]
@[simp] theorem State.memRead_miuAttached (a : Word) (w : Width) : (s.memRead a w).2.miuAttached = s.miuAttached := by
  rcases s.memRead_cases a w with h | h <;> rw [h]
@[simp] theorem State.memRead_paused (a : Word) (w : Width) : (s.memRead a w).2.paused = s.paused := by
  rcases s.memRead_cases a w with h | h <;> rw [h]
@[simp] theorem State.memRead_breakpoints (a : Word) (w : Width) : (s.memRead a w).2.breakpoints = s.breakpoints := by
  rcases s.memRead_cases a w with h | h <;> rw [h]
@[simp] theorem State.memRead_intc (a : Word) (w : Width) : (s.memRead a w).2.intc = s.intc := by
  rcases s.memRead_cases a w with h | h <;> rw [h]
@[simp] theorem State.memRead_segments (a : Word) (w : Width) : (s.memRead a w).2.segments = s.segments := by
  rcases s.memRead_cases a w with h | h <;> rw [h]
@[simp] theorem State.memRead_mem (a : Word) (w : Width) : (s.memRead a w).2.mem = s.mem := by
  rcases s.memRead_cases a w with h | h <;> rw [h]

@[simp] theorem State.getReg_memRead (a : Word) (w : Width) (r : Reg) : (s.memRead a w).2.getReg r = s.getReg r :=
  State.getReg_of_gpr (s.memRead_gpr a w) r

theorem State.memRead_draws (a : Word) (w : Width) :
    (s.memRead a w).2.draws = s.draws ∨ (s.memRead a w).2.draws = s.draws + 1 := by
  rcases s.memRead_cases a w with h | h <;> rw [h] <;> simp

/-- What a read gives depends on memory, the INTC, the segment table and the draws only. -/
theorem State.memRead_congr {s t : State} (hm : t.mem = s.mem) (hi : t.intc = s.intc) (hs : t.segments = s.segments)
    (hd : t.draws = s.draws) (a : Word) (w : Width) : (t.memRead a w).1 = (s.memRead a w).1 := by
  have hr : t.region a = s.region a := by simp [State.region, hs]
  unfold State.memRead
  rw [hr]
  cases s.region a with
  | dense d => simp [hm]
  | mmio => dsimp only; rw [hi, hd]; split <;> rfl
  | cdrom => simp [State.draw, hd]
  | sink => rfl

/-! ### Writes of memory -/

/-- What a write can do: nothing; the bytes stored in a writable dense region, in bounds; or an INTC update. -/
theorem State.memWrite_cases (a : Word) (w : Width) (v : Word) :
    s.memWrite a w v = s
      ∨ (∃ d, s.region a = .dense d ∧ d.guestWritable = true ∧ offsetOf a + w.bytes ≤ d.size
          ∧ s.memWrite a w v = { s with mem := s.mem.writeBytes (d.home + offsetOf a) (leBytes v w.bytes) })
      ∨ (s.region a = .mmio
          ∧ s.memWrite a w v = { s with intc := s.intc.writeBytes (offsetOf a) (leBytes v w.bytes) }) := by
  unfold State.memWrite
  cases h : s.region a with
  | dense d =>
    dsimp only
    split
    case isTrue hc =>
      simp only [Bool.and_eq_true, decide_eq_true_eq] at hc
      exact .inr (.inl ⟨d, rfl, hc.1, hc.2, rfl⟩)
    case isFalse => exact .inl rfl
  | mmio => exact .inr (.inr ⟨rfl, rfl⟩)
  | cdrom => exact .inl rfl
  | sink => exact .inl rfl

@[simp] theorem State.memWrite_gpr (a : Word) (w : Width) (v : Word) : (s.memWrite a w v).gpr = s.gpr := by
  rcases s.memWrite_cases a w v with h | ⟨d, _, _, _, h⟩ | ⟨_, h⟩ <;> rw [h]
@[simp] theorem State.memWrite_pc (a : Word) (w : Width) (v : Word) : (s.memWrite a w v).pc = s.pc := by
  rcases s.memWrite_cases a w v with h | ⟨d, _, _, _, h⟩ | ⟨_, h⟩ <;> rw [h]
@[simp] theorem State.memWrite_flags (a : Word) (w : Width) (v : Word) : (s.memWrite a w v).flags = s.flags := by
  rcases s.memWrite_cases a w v with h | ⟨d, _, _, _, h⟩ | ⟨_, h⟩ <;> rw [h]
@[simp] theorem State.memWrite_sr (a : Word) (w : Width) (v : Word) : (s.memWrite a w v).sr = s.sr := by
  rcases s.memWrite_cases a w v with h | ⟨d, _, _, _, h⟩ | ⟨_, h⟩ <;> rw [h]
@[simp] theorem State.memWrite_cr (a : Word) (w : Width) (v : Word) : (s.memWrite a w v).cr = s.cr := by
  rcases s.memWrite_cases a w v with h | ⟨d, _, _, _, h⟩ | ⟨_, h⟩ <;> rw [h]
@[simp] theorem State.memWrite_cel (a : Word) (w : Width) (v : Word) : (s.memWrite a w v).cel = s.cel := by
  rcases s.memWrite_cases a w v with h | ⟨d, _, _, _, h⟩ | ⟨_, h⟩ <;> rw [h]
@[simp] theorem State.memWrite_ceh (a : Word) (w : Width) (v : Word) : (s.memWrite a w v).ceh = s.ceh := by
  rcases s.memWrite_cases a w v with h | ⟨d, _, _, _, h⟩ | ⟨_, h⟩ <;> rw [h]
@[simp] theorem State.memWrite_cycles (a : Word) (w : Width) (v : Word) : (s.memWrite a w v).cycles = s.cycles := by
  rcases s.memWrite_cases a w v with h | ⟨d, _, _, _, h⟩ | ⟨_, h⟩ <;> rw [h]
@[simp] theorem State.memWrite_instructions (a : Word) (w : Width) (v : Word) : (s.memWrite a w v).instructions = s.instructions := by
  rcases s.memWrite_cases a w v with h | ⟨d, _, _, _, h⟩ | ⟨_, h⟩ <;> rw [h]
@[simp] theorem State.memWrite_halted (a : Word) (w : Width) (v : Word) : (s.memWrite a w v).halted = s.halted := by
  rcases s.memWrite_cases a w v with h | ⟨d, _, _, _, h⟩ | ⟨_, h⟩ <;> rw [h]
@[simp] theorem State.memWrite_faultCount (a : Word) (w : Width) (v : Word) : (s.memWrite a w v).faultCount = s.faultCount := by
  rcases s.memWrite_cases a w v with h | ⟨d, _, _, _, h⟩ | ⟨_, h⟩ <;> rw [h]
@[simp] theorem State.memWrite_initialized (a : Word) (w : Width) (v : Word) : (s.memWrite a w v).initialized = s.initialized := by
  rcases s.memWrite_cases a w v with h | ⟨d, _, _, _, h⟩ | ⟨_, h⟩ <;> rw [h]
@[simp] theorem State.memWrite_miuAttached (a : Word) (w : Width) (v : Word) : (s.memWrite a w v).miuAttached = s.miuAttached := by
  rcases s.memWrite_cases a w v with h | ⟨d, _, _, _, h⟩ | ⟨_, h⟩ <;> rw [h]
@[simp] theorem State.memWrite_paused (a : Word) (w : Width) (v : Word) : (s.memWrite a w v).paused = s.paused := by
  rcases s.memWrite_cases a w v with h | ⟨d, _, _, _, h⟩ | ⟨_, h⟩ <;> rw [h]
@[simp] theorem State.memWrite_breakpoints (a : Word) (w : Width) (v : Word) : (s.memWrite a w v).breakpoints = s.breakpoints := by
  rcases s.memWrite_cases a w v with h | ⟨d, _, _, _, h⟩ | ⟨_, h⟩ <;> rw [h]
@[simp] theorem State.memWrite_segments (a : Word) (w : Width) (v : Word) : (s.memWrite a w v).segments = s.segments := by
  rcases s.memWrite_cases a w v with h | ⟨d, _, _, _, h⟩ | ⟨_, h⟩ <;> rw [h]
@[simp] theorem State.memWrite_draws (a : Word) (w : Width) (v : Word) : (s.memWrite a w v).draws = s.draws := by
  rcases s.memWrite_cases a w v with h | ⟨d, _, _, _, h⟩ | ⟨_, h⟩ <;> rw [h]

@[simp] theorem State.getReg_memWrite (a : Word) (w : Width) (v : Word) (r : Reg) :
    (s.memWrite a w v).getReg r = s.getReg r :=
  State.getReg_of_gpr (s.memWrite_gpr a w v) r

@[simp] theorem leBytes_length (v : Word) (n : Nat) : (leBytes v n).length = n := by simp [leBytes]

/-- A write keeps the canonical form of memory. -/
theorem State.memWrite_wf (a : Word) (w : Width) (v : Word) (h : s.mem.wf = true) :
    (s.memWrite a w v).mem.wf = true := by
  rcases s.memWrite_cases a w v with e | ⟨d, _, _, _, e⟩ | ⟨_, e⟩ <;> rw [e]
  · exact h
  · exact Memory.wf_writeBytes _ _ _ h
  · exact h

/-- A host load keeps the canonical form of memory. -/
theorem State.loadBytes_wf (d : Dense) (off : Nat) (bs : List Byte) (h : s.mem.wf = true) :
    (s.loadBytes d off bs).mem.wf = true :=
  Memory.wf_writeBytes _ _ _ h

/-- The byte at a key after a write in a writable dense region, in bounds. -/
theorem State.memWrite_get {a : Word} {d : Dense} (h : s.region a = .dense d) (hw : d.guestWritable = true)
    (w : Width) (v : Word) (hb : offsetOf a + w.bytes ≤ d.size) (q : Nat) :
    (s.memWrite a w v).mem.get q =
      if d.home + offsetOf a ≤ q ∧ q < d.home + offsetOf a + w.bytes then byteOf v (q - (d.home + offsetOf a))
      else s.mem.get q := by
  have hm : (s.memWrite a w v).mem = s.mem.writeBytes (d.home + offsetOf a) (leBytes v w.bytes) := by
    simp [State.memWrite, h, hw, hb]
  rw [hm, Memory.get_writeBytes]
  by_cases h1 : d.home + offsetOf a ≤ q
  · by_cases h2 : q < d.home + offsetOf a + w.bytes
    · have h3 : q - (d.home + offsetOf a) < w.bytes := by omega
      simp [h1, h2, leBytes, List.getElem?_map, List.getElem?_range h3]
    · have h3 : w.bytes ≤ q - (d.home + offsetOf a) := by omega
      simp [h1, h2, h3]
  · simp [h1]

/-- A key of a dense region holds a byte of it. -/
theorem Dense.holdsKey_iff (k : Nat) :
    Dense.holdsKey k = true ↔ (0xA0000000 ≤ k ∧ k < 0xA1000000) ∨ (0x9E000000 ≤ k ∧ k < 0x9E800000) := by
  simp only [Dense.holdsKey, Bool.or_eq_true, Bool.and_eq_true, decide_eq_true_eq]
  exact Iff.rfl

/-- The dense regions do not overlap: a key inside FLASH is outside DRAM. -/
theorem Dense.flash_lt_dram {off : Nat} (h : off < Config.flashSize) : Dense.flash.home + off < Dense.dram.home := by
  have h' : off < 0x800000 := h
  show 0x9E000000 + off < 0xA0000000
  omega

/-- Bytes stored inside a dense region leave every listed key in some dense region. -/
theorem Memory.holdsKey_writeBytes {m : Memory} (h : ∀ c ∈ m, Dense.holdsKey c.1 = true) (d : Dense) (off : Nat)
    (bs : List Byte) (hb : off + bs.length ≤ d.size) : ∀ c ∈ m.writeBytes (d.home + off) bs, Dense.holdsKey c.1 = true := by
  intro c hc
  rcases Memory.mem_writeBytes bs m _ c hc with hc | ⟨h1, h2⟩
  · exact h c hc
  · rw [Dense.holdsKey_iff]
    cases d
    · have a1 : off + bs.length ≤ 0x1000000 := hb
      have a2 : 0xA0000000 + off ≤ c.1 := h1
      have a3 : c.1 < 0xA0000000 + off + bs.length := h2
      omega
    · have a1 : off + bs.length ≤ 0x800000 := hb
      have a2 : 0x9E000000 + off ≤ c.1 := h1
      have a3 : c.1 < 0x9E000000 + off + bs.length := h2
      omega

/-- A guest write keeps the listed keys in the dense regions. -/
theorem State.memWrite_holdsKey (a : Word) (w : Width) (v : Word) (h : ∀ c ∈ s.mem, Dense.holdsKey c.1 = true) :
    ∀ c ∈ (s.memWrite a w v).mem, Dense.holdsKey c.1 = true := by
  rcases s.memWrite_cases a w v with e | ⟨d, _, _, hb, e⟩ | ⟨_, e⟩ <;> rw [e]
  · exact h
  · exact Memory.holdsKey_writeBytes h d _ _ (by simpa using hb)
  · exact h

/-- A guest write changes no byte of FLASH (D30). -/
theorem State.memWrite_flash (a : Word) (w : Width) (v : Word) {off : Nat} (h : off < Config.flashSize) :
    (s.memWrite a w v).mem.get (Dense.flash.home + off) = s.mem.get (Dense.flash.home + off) := by
  rcases s.memWrite_cases a w v with e | ⟨d, h1, h2, hb, e⟩ | ⟨_, e⟩
  · rw [e]
  · have hd : d = .dram := by cases d with
      | dram => rfl
      | flash => exact absurd h2 (by decide)
    subst hd
    have := Dense.flash_lt_dram h
    rw [State.memWrite_get s h1 h2 w v hb, if_neg (by omega)]
  · rw [e]

/-- Memory after reset is in canonical form. -/
theorem State.reset_mem_wf : State.reset.mem.wf = true := rfl

/-! ### The read of one byte -/

/-- Reading one byte depends on memory, the INTC and the segment table only. -/
theorem State.peekByte_congr {s t : State} (hm : t.mem = s.mem) (hi : t.intc = s.intc) (hs : t.segments = s.segments)
    (a : Word) : t.peekByte a = s.peekByte a := by
  simp [State.peekByte, State.region, hm, hi, hs]

/-! ### Bytes of words -/

theorem byteOf_getLsbD (v : Word) (k i : Nat) : (byteOf v k).getLsbD i = (decide (i < 8) && v.getLsbD (8 * k + i)) := by
  simp [byteOf, BitVec.getLsbD_setWidth, BitVec.getLsbD_ushiftRight]

theorem leWord_cons_getLsbD (b : Byte) (bs : List Byte) (i : Nat) :
    (leWord (b :: bs)).getLsbD i =
      if i < 8 then b.getLsbD i else decide (i < 32) && (leWord bs).getLsbD (i - 8) := by
  by_cases h : i < 8
  · have : i < 32 := by omega
    simp [leWord, h, this]
  · simp [leWord, h, BitVec.getLsbD_of_ge b i (by omega)]

/-! ### Exceptions -/

@[simp] theorem State.takeException_gpr (c : BitVec 8) : (s.takeException c).gpr = s.gpr := rfl
@[simp] theorem State.takeException_flags (c : BitVec 8) : (s.takeException c).flags = s.flags := rfl
@[simp] theorem State.takeException_sr (c : BitVec 8) : (s.takeException c).sr = s.sr := rfl
@[simp] theorem State.takeException_cel (c : BitVec 8) : (s.takeException c).cel = s.cel := rfl
@[simp] theorem State.takeException_ceh (c : BitVec 8) : (s.takeException c).ceh = s.ceh := rfl
@[simp] theorem State.takeException_cycles (c : BitVec 8) : (s.takeException c).cycles = s.cycles := rfl
@[simp] theorem State.takeException_instructions (c : BitVec 8) : (s.takeException c).instructions = s.instructions := rfl
@[simp] theorem State.takeException_halted (c : BitVec 8) : (s.takeException c).halted = s.halted := rfl
@[simp] theorem State.takeException_faultCount (c : BitVec 8) : (s.takeException c).faultCount = s.faultCount := rfl
@[simp] theorem State.takeException_initialized (c : BitVec 8) : (s.takeException c).initialized = s.initialized := rfl
@[simp] theorem State.takeException_miuAttached (c : BitVec 8) : (s.takeException c).miuAttached = s.miuAttached := rfl
@[simp] theorem State.takeException_paused (c : BitVec 8) : (s.takeException c).paused = s.paused := rfl
@[simp] theorem State.takeException_breakpoints (c : BitVec 8) : (s.takeException c).breakpoints = s.breakpoints := rfl
@[simp] theorem State.takeException_intc (c : BitVec 8) : (s.takeException c).intc = s.intc := rfl
@[simp] theorem State.takeException_segments (c : BitVec 8) : (s.takeException c).segments = s.segments := rfl
@[simp] theorem State.takeException_mem (c : BitVec 8) : (s.takeException c).mem = s.mem := rfl
@[simp] theorem State.takeException_draws (c : BitVec 8) : (s.takeException c).draws = s.draws := rfl

@[simp] theorem State.getReg_takeException (c : BitVec 8) (r : Reg) : (s.takeException c).getReg r = s.getReg r := rfl

/-- Where pc goes: the vector. -/
@[simp] theorem State.takeException_pc (c : BitVec 8) : (s.takeException c).pc = vectorOf (s.getCr 3#5) c := by
  simp [State.takeException, State.getCr_setCr]

/-- What each control register holds after an entry. -/
theorem State.getCr_takeException (c : BitVec 8) (n : SpecialIdx) :
    (s.takeException c).getCr n =
      if n = 0#5 then s.getCr 0#5 &&& ~~~1#32
      else if n = 1#5 then s.flags.pack
      else if n = 2#5 then withCause (s.getCr 2#5) c
      else if n = 5#5 then s.pc
      else s.getCr n := by
  simp only [State.takeException, State.getCr_jump, State.getCr_setCr]
  by_cases h0 : n = 0#5
  · simp [h0]
  · by_cases h1 : n = 1#5
    · simp [h1]
    · by_cases h2 : n = 2#5
      · simp [h2]
      · by_cases h5 : n = 5#5
        · simp [h5]
        · simp [h0, h1, h2, h5]

@[simp] theorem State.returnFromException_gpr : s.returnFromException.gpr = s.gpr := rfl
@[simp] theorem State.returnFromException_sr : s.returnFromException.sr = s.sr := rfl
@[simp] theorem State.returnFromException_cr : s.returnFromException.cr = s.cr := rfl
@[simp] theorem State.returnFromException_cel : s.returnFromException.cel = s.cel := rfl
@[simp] theorem State.returnFromException_ceh : s.returnFromException.ceh = s.ceh := rfl
@[simp] theorem State.returnFromException_cycles : s.returnFromException.cycles = s.cycles := rfl
@[simp] theorem State.returnFromException_instructions : s.returnFromException.instructions = s.instructions := rfl
@[simp] theorem State.returnFromException_halted : s.returnFromException.halted = s.halted := rfl
@[simp] theorem State.returnFromException_faultCount : s.returnFromException.faultCount = s.faultCount := rfl
@[simp] theorem State.returnFromException_initialized : s.returnFromException.initialized = s.initialized := rfl
@[simp] theorem State.returnFromException_miuAttached : s.returnFromException.miuAttached = s.miuAttached := rfl
@[simp] theorem State.returnFromException_paused : s.returnFromException.paused = s.paused := rfl
@[simp] theorem State.returnFromException_breakpoints : s.returnFromException.breakpoints = s.breakpoints := rfl
@[simp] theorem State.returnFromException_intc : s.returnFromException.intc = s.intc := rfl
@[simp] theorem State.returnFromException_segments : s.returnFromException.segments = s.segments := rfl
@[simp] theorem State.returnFromException_mem : s.returnFromException.mem = s.mem := rfl
@[simp] theorem State.returnFromException_draws : s.returnFromException.draws = s.draws := rfl
@[simp] theorem State.returnFromException_flags : s.returnFromException.flags = Flags.unpack (s.getCr 1#5) := rfl
@[simp] theorem State.returnFromException_pc : s.returnFromException.pc = s.getCr 5#5 := rfl

/-- Unpacking the packed flags gives them back (R28). -/
@[simp] theorem Flags.unpack_pack (f : Flags) : Flags.unpack f.pack = f := by
  obtain ⟨n, z, c, v, t⟩ := f
  cases n <;> cases z <;> cases c <;> cases v <;> cases t <;> decide

/-! ### The shapes of the meanings -/

@[simp] theorem State.next4_eq : s.next4 = .next (s.advance 4#32) := rfl
@[simp] theorem State.next2_eq : s.next2 = .next (s.advance 2#32) := rfl

/-- `addInto` writes the flags, then the result. -/
theorem State.addInto_eq (rd : Reg) (a b : Word) (cin uf : Bool) :
    s.addInto rd a b cin uf = (s.setFlags (s.flags.add uf a b cin)).setReg rd (addResult a b cin) := rfl

/-- `subInto` writes the flags, then the result. -/
theorem State.subInto_eq (rd : Reg) (a b : Word) (bin uf : Bool) :
    s.subInto rd a b bin uf = (s.setFlags (s.flags.sub uf a b bin)).setReg rd (subResult a b bin) := rfl

/-- `nzInto` writes the flags, then the result. -/
theorem State.nzInto_eq (rd : Reg) (v : Word) (uf : Bool) :
    s.nzInto rd v uf = (s.setFlags (s.flags.nz uf v)).setReg rd (v) := rfl

/-- `shiftInto` writes the flags, then the result. -/
theorem State.shiftInto_eq (rd : Reg) (kind : ShiftKind) (a amount : Word) (uf : Bool) :
    s.shiftInto rd kind a amount uf = (s.setFlags (s.flags.shift uf kind a amount)).setReg rd (shiftResult kind a amount) := rfl

/-- `rotateInto` writes the flags, then the result. -/
theorem State.rotateInto_eq (rd : Reg) (kind : RotateKind) (a amount : Word) (uf : Bool) :
    s.rotateInto rd kind a amount uf = (s.setFlags (s.flags.rotate uf kind a amount)).setReg rd (rotateResult kind a amount s.flags.c) := rfl

/-- A load reads, then writes the extended value. -/
theorem State.load_eq (op : LoadOp) (rd : Reg) (ea : Word) :
    s.load op rd ea = (s.memRead ea op.width).2.setReg rd (op.extend (s.memRead ea op.width).1) := rfl

/-- A store writes the low bytes of its operand. -/
theorem State.store_eq (op : StoreOp) (ea d : Word) : s.store op ea d = s.memWrite ea op.width d := rfl

/-- A post-increment load: the read at the old base, the base update, the destination last. -/
theorem State.loadPost_eq (op : LoadOp) (rd ra : Reg) (off : Word) :
    s.loadPost op rd ra off =
      ((s.memRead (s.getReg ra) op.width).2.setReg ra (s.getReg ra + off)).setReg rd
        (op.extend (s.memRead (s.getReg ra) op.width).1) := rfl

/-- A post-increment store: the write at the old base, then the base update. -/
theorem State.storePost_eq (op : StoreOp) (rd ra : Reg) (off : Word) :
    s.storePost op rd ra off =
      (s.memWrite (s.getReg ra) op.width (s.getReg rd)).setReg ra (s.getReg ra + off) := rfl

end Sys2Proof.Machine
end

