-- ==== Sys2Proof/Laws/Exec.lean ====
section
/-! SUPPORT. What each arm of `exec` answers, one equation per constructor, over the shared operations: the proofs cite
these instead of unfolding `exec` or a meaning. -/

namespace Sys2Proof.Machine

variable (s : State)

theorem exec_nop :
    exec .nop s = .next (s.advance 4#32) := rfl
theorem exec_syscall :
    exec .syscall s = .next (s.takeException Config.syscallCause) := rfl
theorem exec_trap :
    exec .trap s = .next (s.takeException Config.trapCause) := rfl
theorem exec_sdbbp :
    exec .sdbbp s = .next (s.takeException Config.debugCause) := rfl
theorem exec_br (ra : Reg) :
    exec (.br ra) s = .next (s.jump (s.getReg ra)) := rfl
theorem exec_brl (ra : Reg) :
    exec (.brl ra) s = .next ((s.link (s.pc + 4#32)).jump (s.getReg ra)) := rfl
theorem exec_rte :
    exec .rte s = .next s.returnFromException := rfl
theorem exec_add (rd : Reg) (ra : Reg) (rb : Reg) (cu : Bool) :
    exec (.add rd ra rb cu) s = .next ((s.addInto rd (s.getReg ra) (s.getReg rb) false cu).advance 4#32) := rfl
theorem exec_addc (rd : Reg) (ra : Reg) (rb : Reg) (cu : Bool) :
    exec (.addc rd ra rb cu) s = .next ((s.addInto rd (s.getReg ra) (s.getReg rb) s.flags.c cu).advance 4#32) := rfl
theorem exec_sub (rd : Reg) (ra : Reg) (rb : Reg) (cu : Bool) :
    exec (.sub rd ra rb cu) s = .next ((s.subInto rd (s.getReg ra) (s.getReg rb) false cu).advance 4#32) := rfl
theorem exec_subc (rd : Reg) (ra : Reg) (rb : Reg) (cu : Bool) :
    exec (.subc rd ra rb cu) s =
      .next ((s.subInto rd (s.getReg ra) (s.getReg rb) (!s.flags.c) cu).advance 4#32) := rfl
theorem exec_cmp (ra : Reg) (rb : Reg) :
    exec (.cmp ra rb) s = .next ((s.compare (s.getReg ra) (s.getReg rb)).advance 4#32) := rfl
theorem exec_neg (rd : Reg) (ra : Reg) (cu : Bool) :
    exec (.neg rd ra cu) s = .next ((s.subInto rd 0#32 (s.getReg ra) false cu).advance 4#32) := rfl
theorem exec_and (rd : Reg) (ra : Reg) (rb : Reg) (cu : Bool) :
    exec (.and rd ra rb cu) s = .next ((s.nzInto rd (s.getReg ra &&& s.getReg rb) cu).advance 4#32) := rfl
theorem exec_or (rd : Reg) (ra : Reg) (rb : Reg) (cu : Bool) :
    exec (.or rd ra rb cu) s = .next ((s.nzInto rd (s.getReg ra ||| s.getReg rb) cu).advance 4#32) := rfl
theorem exec_not (rd : Reg) (ra : Reg) (cu : Bool) :
    exec (.not rd ra cu) s = .next ((s.nzInto rd (~~~s.getReg ra) cu).advance 4#32) := rfl
theorem exec_xor (rd : Reg) (ra : Reg) (rb : Reg) (cu : Bool) :
    exec (.xor rd ra rb cu) s = .next ((s.nzInto rd (s.getReg ra ^^^ s.getReg rb) cu).advance 4#32) := rfl
theorem exec_bitclr (rd : Reg) (ra : Reg) (k : BitVec 5) (cu : Bool) :
    exec (.bitclr rd ra k cu) s = .next ((s.nzInto rd (bitclrResult (s.getReg ra) k) cu).advance 4#32) := rfl
theorem exec_bitset (rd : Reg) (ra : Reg) (k : BitVec 5) (cu : Bool) :
    exec (.bitset rd ra k cu) s = .next ((s.nzInto rd (bitsetResult (s.getReg ra) k) cu).advance 4#32) := rfl
theorem exec_bittst (ra : Reg) (k : BitVec 5) :
    exec (.bittst ra k) s = .next ((s.setFlags (s.flags.bittst (s.getReg ra) k)).advance 4#32) := rfl
theorem exec_bittgl (rd : Reg) (ra : Reg) (k : BitVec 5) (cu : Bool) :
    exec (.bittgl rd ra k cu) s = .next ((s.nzInto rd (bittglResult (s.getReg ra) k) cu).advance 4#32) := rfl
theorem exec_sll (rd : Reg) (ra : Reg) (rb : Reg) (cu : Bool) :
    exec (.sll rd ra rb cu) s = .next ((s.shiftInto rd .sll (s.getReg ra) (s.getReg rb) cu).advance 4#32) := rfl
theorem exec_srl (rd : Reg) (ra : Reg) (rb : Reg) (cu : Bool) :
    exec (.srl rd ra rb cu) s = .next ((s.shiftInto rd .srl (s.getReg ra) (s.getReg rb) cu).advance 4#32) := rfl
theorem exec_sra (rd : Reg) (ra : Reg) (rb : Reg) (cu : Bool) :
    exec (.sra rd ra rb cu) s = .next ((s.shiftInto rd .sra (s.getReg ra) (s.getReg rb) cu).advance 4#32) := rfl
theorem exec_ror (rd : Reg) (ra : Reg) (rb : Reg) (cu : Bool) :
    exec (.ror rd ra rb cu) s = .next ((s.shiftInto rd .ror (s.getReg ra) (s.getReg rb) cu).advance 4#32) := rfl
theorem exec_rorc (rd : Reg) (ra : Reg) (rb : Reg) (cu : Bool) :
    exec (.rorc rd ra rb cu) s = .next ((s.rotateInto rd .rorc (s.getReg ra) (s.getReg rb) cu).advance 4#32) := rfl
theorem exec_rol (rd : Reg) (ra : Reg) (rb : Reg) (cu : Bool) :
    exec (.rol rd ra rb cu) s = .next ((s.shiftInto rd .rol (s.getReg ra) (s.getReg rb) cu).advance 4#32) := rfl
theorem exec_rolc (rd : Reg) (ra : Reg) (rb : Reg) (cu : Bool) :
    exec (.rolc rd ra rb cu) s = .next ((s.rotateInto rd .rolc (s.getReg ra) (s.getReg rb) cu).advance 4#32) := rfl
theorem exec_mul (ra : Reg) (rb : Reg) :
    exec (.mul ra rb) s =
      .next ((s.setCe (mulPair (s.getReg ra) (s.getReg rb)).1 (mulPair (s.getReg ra) (s.getReg rb)).2).advance 4#32) := rfl
theorem exec_mulu (ra : Reg) (rb : Reg) :
    exec (.mulu ra rb) s =
      .next ((s.setCe (muluPair (s.getReg ra) (s.getReg rb)).1 (muluPair (s.getReg ra) (s.getReg rb)).2).advance 4#32) := rfl
theorem exec_div (ra : Reg) (rb : Reg) :
    exec (.div ra rb) s = .next ((s.divideInto (divPair (s.getReg ra) (s.getReg rb))).advance 4#32) := rfl
theorem exec_divu (ra : Reg) (rb : Reg) :
    exec (.divu ra rb) s = .next ((s.divideInto (divuPair (s.getReg ra) (s.getReg rb))).advance 4#32) := rfl
theorem exec_mfcel (rd : Reg) :
    exec (.mfcel rd) s = .next ((s.setReg rd s.cel).advance 4#32) := rfl
theorem exec_mfceh (rd : Reg) :
    exec (.mfceh rd) s = .next ((s.setReg rd s.ceh).advance 4#32) := rfl
theorem exec_mfcehl (rd : Reg) (ra : Reg) :
    exec (.mfcehl rd ra) s = .next (((s.setReg rd s.ceh).setReg ra s.cel).advance 4#32) := rfl
theorem exec_mtcel (rd : Reg) :
    exec (.mtcel rd) s = .next ((s.setCe (s.getReg rd) s.ceh).advance 4#32) := rfl
theorem exec_mtceh (rd : Reg) :
    exec (.mtceh rd) s = .next ((s.setCe s.cel (s.getReg rd)).advance 4#32) := rfl
theorem exec_mtcehl (rd : Reg) (ra : Reg) :
    exec (.mtcehl rd ra) s = .next ((s.setCe (s.getReg ra) (s.getReg rd)).advance 4#32) := rfl
theorem exec_mfcr (rd : Reg) (n : SpecialIdx) :
    exec (.mfcr rd n) s = .next ((s.setReg rd (s.getCr n)).advance 4#32) := rfl
theorem exec_mtcr (rd : Reg) (n : SpecialIdx) :
    exec (.mtcr rd n) s = .next ((s.setCr n (s.getReg rd)).advance 4#32) := rfl
theorem exec_mfsr (rd : Reg) (n : SpecialIdx) :
    exec (.mfsr rd n) s = .next ((s.setReg rd (s.getSr n)).advance 4#32) := rfl
theorem exec_mtsr (rd : Reg) (n : SpecialIdx) :
    exec (.mtsr rd n) s = .next ((s.setSr n (s.getReg rd)).advance 4#32) := rfl
theorem exec_tCond (c : Cond) :
    exec (.tCond c) s = .next ((s.setFlags { s.flags with t := s.flags.cond c }).advance 4#32) := rfl
theorem exec_mvCond (c : Cond) (rd : Reg) (ra : Reg) :
    exec (.mvCond c rd ra) s =
      .next ((if s.flags.cond c then s.setReg rd (s.getReg ra) else s : State).advance 4#32) := rfl
theorem exec_extsb (rd : Reg) (ra : Reg) (cu : Bool) :
    exec (.extsb rd ra cu) s = .next ((s.nzInto rd (extsbResult (s.getReg ra)) cu).advance 4#32) := rfl
theorem exec_extsh (rd : Reg) (ra : Reg) (cu : Bool) :
    exec (.extsh rd ra cu) s = .next ((s.nzInto rd (extshResult (s.getReg ra)) cu).advance 4#32) := rfl
theorem exec_extzb (rd : Reg) (ra : Reg) (cu : Bool) :
    exec (.extzb rd ra cu) s = .next ((s.nzInto rd (extzbResult (s.getReg ra)) cu).advance 4#32) := rfl
theorem exec_extzh (rd : Reg) (ra : Reg) (cu : Bool) :
    exec (.extzh rd ra cu) s = .next ((s.nzInto rd (extzhResult (s.getReg ra)) cu).advance 4#32) := rfl
theorem exec_lcb (rd : Reg) (ra : Reg) :
    exec (.lcb rd ra) s = .next ((s.load .lbu rd (s.getReg ra)).advance 4#32) := rfl
theorem exec_lcw (rd : Reg) (ra : Reg) :
    exec (.lcw rd ra) s = .next ((s.load .lw rd (s.getReg ra)).advance 4#32) := rfl
theorem exec_scb (rd : Reg) (ra : Reg) :
    exec (.scb rd ra) s = .next ((s.store .sb (s.getReg ra) (s.getReg rd)).advance 4#32) := rfl
theorem exec_scw (rd : Reg) (ra : Reg) :
    exec (.scw rd ra) s = .next ((s.store .sw (s.getReg ra) (s.getReg rd)).advance 4#32) := rfl
theorem exec_slli (rd : Reg) (ra : Reg) (imm5 : BitVec 5) (cu : Bool) :
    exec (.slli rd ra imm5 cu) s = .next ((s.shiftInto rd .sll (s.getReg ra) (uimm5 imm5) cu).advance 4#32) := rfl
theorem exec_srli (rd : Reg) (ra : Reg) (imm5 : BitVec 5) (cu : Bool) :
    exec (.srli rd ra imm5 cu) s = .next ((s.shiftInto rd .srl (s.getReg ra) (uimm5 imm5) cu).advance 4#32) := rfl
theorem exec_srai (rd : Reg) (ra : Reg) (imm5 : BitVec 5) (cu : Bool) :
    exec (.srai rd ra imm5 cu) s = .next ((s.shiftInto rd .sra (s.getReg ra) (uimm5 imm5) cu).advance 4#32) := rfl
theorem exec_rori (rd : Reg) (ra : Reg) (imm5 : BitVec 5) (cu : Bool) :
    exec (.rori rd ra imm5 cu) s = .next ((s.shiftInto rd .ror (s.getReg ra) (uimm5 imm5) cu).advance 4#32) := rfl
theorem exec_roric (rd : Reg) (ra : Reg) (imm5 : BitVec 5) (cu : Bool) :
    exec (.roric rd ra imm5 cu) s = .next ((s.rotateInto rd .rorc (s.getReg ra) (uimm5 imm5) cu).advance 4#32) := rfl
theorem exec_roli (rd : Reg) (ra : Reg) (imm5 : BitVec 5) (cu : Bool) :
    exec (.roli rd ra imm5 cu) s = .next ((s.shiftInto rd .rol (s.getReg ra) (uimm5 imm5) cu).advance 4#32) := rfl
theorem exec_rolic (rd : Reg) (ra : Reg) (imm5 : BitVec 5) (cu : Bool) :
    exec (.rolic rd ra imm5 cu) s = .next ((s.rotateInto rd .rolc (s.getReg ra) (uimm5 imm5) cu).advance 4#32) := rfl
theorem exec_addi (rd : Reg) (imm16 : BitVec 16) (cu : Bool) :
    exec (.addi rd imm16 cu) s = .next ((s.addInto rd (s.getReg rd) (lowSimm imm16) false cu).advance 4#32) := rfl
theorem exec_addis (rd : Reg) (imm16 : BitVec 16) (cu : Bool) :
    exec (.addis rd imm16 cu) s = .next ((s.addInto rd (s.getReg rd) (upperImm imm16) false cu).advance 4#32) := rfl
theorem exec_cmpi (rd : Reg) (imm16 : BitVec 16) :
    exec (.cmpi rd imm16) s = .next ((s.compare (s.getReg rd) (lowSimm imm16)).advance 4#32) := rfl
theorem exec_cmpis (rd : Reg) (imm16 : BitVec 16) :
    exec (.cmpis rd imm16) s = .next ((s.compare (s.getReg rd) (upperImm imm16)).advance 4#32) := rfl
theorem exec_andi (rd : Reg) (imm16 : BitVec 16) (cu : Bool) :
    exec (.andi rd imm16 cu) s = .next ((s.nzInto rd (s.getReg rd &&& lowUimm imm16) cu).advance 4#32) := rfl
theorem exec_andis (rd : Reg) (imm16 : BitVec 16) (cu : Bool) :
    exec (.andis rd imm16 cu) s = .next ((s.nzInto rd (s.getReg rd &&& upperImm imm16) cu).advance 4#32) := rfl
theorem exec_ori (rd : Reg) (imm16 : BitVec 16) (cu : Bool) :
    exec (.ori rd imm16 cu) s = .next ((s.nzInto rd (s.getReg rd ||| lowUimm imm16) cu).advance 4#32) := rfl
theorem exec_oris (rd : Reg) (imm16 : BitVec 16) (cu : Bool) :
    exec (.oris rd imm16 cu) s = .next ((s.nzInto rd (s.getReg rd ||| upperImm imm16) cu).advance 4#32) := rfl
theorem exec_ldi (rd : Reg) (imm16 : BitVec 16) :
    exec (.ldi rd imm16) s = .next ((s.setReg rd (lowSimm imm16)).advance 4#32) := rfl
theorem exec_ldis (rd : Reg) (imm16 : BitVec 16) :
    exec (.ldis rd imm16) s = .next ((s.setReg rd (upperImm imm16)).advance 4#32) := rfl
theorem exec_j (disp24 : BitVec 24) :
    exec (.j disp24) s = .next (s.jump (jTarget s.pc disp24)) := rfl
theorem exec_jl (disp24 : BitVec 24) :
    exec (.jl disp24) s = .next ((s.link (s.pc + 4#32)).jump (jTarget s.pc disp24)) := rfl
theorem exec_bCond (c : Cond) (disp22 : BitVec 22) :
    exec (.bCond c disp22) s =
      if s.flags.cond c then .next (s.jump (bTarget s.pc disp22)) else .next (s.advance 4#32) := rfl
theorem exec_bCondL (c : Cond) (disp22 : BitVec 22) :
    exec (.bCondL c disp22) s =
      if s.flags.cond c then .next ((s.link (s.pc + 4#32)).jump (bTarget s.pc disp22)) else .next (s.advance 4#32) := rfl
theorem exec_lwRix (rd : Reg) (ra : Reg) (imm12 : BitVec 12) :
    exec (.lwRix rd ra imm12) s = .next ((s.load .lw rd (s.getReg ra + rixOffset imm12)).advance 4#32) := rfl
theorem exec_lhRix (rd : Reg) (ra : Reg) (imm12 : BitVec 12) :
    exec (.lhRix rd ra imm12) s = .next ((s.load .lh rd (s.getReg ra + rixOffset imm12)).advance 4#32) := rfl
theorem exec_lhuRix (rd : Reg) (ra : Reg) (imm12 : BitVec 12) :
    exec (.lhuRix rd ra imm12) s = .next ((s.load .lhu rd (s.getReg ra + rixOffset imm12)).advance 4#32) := rfl
theorem exec_lbRix (rd : Reg) (ra : Reg) (imm12 : BitVec 12) :
    exec (.lbRix rd ra imm12) s = .next ((s.load .lb rd (s.getReg ra + rixOffset imm12)).advance 4#32) := rfl
theorem exec_swRix (rd : Reg) (ra : Reg) (imm12 : BitVec 12) :
    exec (.swRix rd ra imm12) s =
      .next ((s.store .sw (s.getReg ra + rixOffset imm12) (s.getReg rd)).advance 4#32) := rfl
theorem exec_shRix (rd : Reg) (ra : Reg) (imm12 : BitVec 12) :
    exec (.shRix rd ra imm12) s =
      .next ((s.store .sh (s.getReg ra + rixOffset imm12) (s.getReg rd)).advance 4#32) := rfl
theorem exec_lbuRix (rd : Reg) (ra : Reg) (imm12 : BitVec 12) :
    exec (.lbuRix rd ra imm12) s = .next ((s.load .lbu rd (s.getReg ra + rixOffset imm12)).advance 4#32) := rfl
theorem exec_sbRix (rd : Reg) (ra : Reg) (imm12 : BitVec 12) :
    exec (.sbRix rd ra imm12) s =
      .next ((s.store .sb (s.getReg ra + rixOffset imm12) (s.getReg rd)).advance 4#32) := rfl
theorem exec_lwPi (rd : Reg) (ra : Reg) (imm12 : BitVec 12) :
    exec (.lwPi rd ra imm12) s = .next ((s.loadPost .lw rd ra (rixOffset imm12)).advance 4#32) := rfl
theorem exec_lhPi (rd : Reg) (ra : Reg) (imm12 : BitVec 12) :
    exec (.lhPi rd ra imm12) s = .next ((s.loadPost .lh rd ra (rixOffset imm12)).advance 4#32) := rfl
theorem exec_lhuPi (rd : Reg) (ra : Reg) (imm12 : BitVec 12) :
    exec (.lhuPi rd ra imm12) s = .next ((s.loadPost .lhu rd ra (rixOffset imm12)).advance 4#32) := rfl
theorem exec_lbPi (rd : Reg) (ra : Reg) (imm12 : BitVec 12) :
    exec (.lbPi rd ra imm12) s = .next ((s.loadPost .lb rd ra (rixOffset imm12)).advance 4#32) := rfl
theorem exec_swPi (rd : Reg) (ra : Reg) (imm12 : BitVec 12) :
    exec (.swPi rd ra imm12) s = .next ((s.storePost .sw rd ra (rixOffset imm12)).advance 4#32) := rfl
theorem exec_shPi (rd : Reg) (ra : Reg) (imm12 : BitVec 12) :
    exec (.shPi rd ra imm12) s = .next ((s.storePost .sh rd ra (rixOffset imm12)).advance 4#32) := rfl
theorem exec_lbuPi (rd : Reg) (ra : Reg) (imm12 : BitVec 12) :
    exec (.lbuPi rd ra imm12) s = .next ((s.loadPost .lbu rd ra (rixOffset imm12)).advance 4#32) := rfl
theorem exec_sbPi (rd : Reg) (ra : Reg) (imm12 : BitVec 12) :
    exec (.sbPi rd ra imm12) s = .next ((s.storePost .sb rd ra (rixOffset imm12)).advance 4#32) := rfl
theorem exec_lw (rd : Reg) (ra : Reg) (imm15 : BitVec 15) :
    exec (.lw rd ra imm15) s = .next ((s.load .lw rd (s.getReg ra + memOffset imm15)).advance 4#32) := rfl
theorem exec_lh (rd : Reg) (ra : Reg) (imm15 : BitVec 15) :
    exec (.lh rd ra imm15) s = .next ((s.load .lh rd (s.getReg ra + memOffset imm15)).advance 4#32) := rfl
theorem exec_lhu (rd : Reg) (ra : Reg) (imm15 : BitVec 15) :
    exec (.lhu rd ra imm15) s = .next ((s.load .lhu rd (s.getReg ra + memOffset imm15)).advance 4#32) := rfl
theorem exec_lb (rd : Reg) (ra : Reg) (imm15 : BitVec 15) :
    exec (.lb rd ra imm15) s = .next ((s.load .lb rd (s.getReg ra + memOffset imm15)).advance 4#32) := rfl
theorem exec_sw (rd : Reg) (ra : Reg) (imm15 : BitVec 15) :
    exec (.sw rd ra imm15) s = .next ((s.store .sw (s.getReg ra + memOffset imm15) (s.getReg rd)).advance 4#32) := rfl
theorem exec_sh (rd : Reg) (ra : Reg) (imm15 : BitVec 15) :
    exec (.sh rd ra imm15) s = .next ((s.store .sh (s.getReg ra + memOffset imm15) (s.getReg rd)).advance 4#32) := rfl
theorem exec_lbu (rd : Reg) (ra : Reg) (imm15 : BitVec 15) :
    exec (.lbu rd ra imm15) s = .next ((s.load .lbu rd (s.getReg ra + memOffset imm15)).advance 4#32) := rfl
theorem exec_sb (rd : Reg) (ra : Reg) (imm15 : BitVec 15) :
    exec (.sb rd ra imm15) s = .next ((s.store .sb (s.getReg ra + memOffset imm15) (s.getReg rd)).advance 4#32) := rfl
theorem exec_nopC :
    exec .nopC s = .next (s.advance 2#32) := rfl
theorem exec_mvC (rd : Reg) (ra : Reg) :
    exec (.mvC rd ra) s = .next ((s.setReg rd (s.getReg ra)).advance 2#32) := rfl
theorem exec_brC (ra : Reg) :
    exec (.brC ra) s = .next (s.jump (s.getReg ra)) := rfl
theorem exec_brlC (ra : Reg) :
    exec (.brlC ra) s = .next ((s.link (s.pc + 2#32)).jump (s.getReg ra)) := rfl
theorem exec_breakC :
    exec .breakC s = .next (s.takeException Config.debugCause) := rfl
theorem exec_addiC (rd : Reg) (imm5 : BitVec 5) :
    exec (.addiC rd imm5) s = .next ((s.addInto rd (s.getReg rd) (simm5 imm5) false true).advance 2#32) := rfl
theorem exec_cmpiC (rd : Reg) (imm5 : BitVec 5) :
    exec (.cmpiC rd imm5) s = .next ((s.compare (s.getReg rd) (simm5 imm5)).advance 2#32) := rfl
theorem exec_andiC (rd : Reg) (imm5 : BitVec 5) :
    exec (.andiC rd imm5) s = .next ((s.nzInto rd (s.getReg rd &&& uimm5 imm5) true).advance 2#32) := rfl
theorem exec_oriC (rd : Reg) (imm5 : BitVec 5) :
    exec (.oriC rd imm5) s = .next ((s.nzInto rd (s.getReg rd ||| uimm5 imm5) true).advance 2#32) := rfl
theorem exec_ldiC (rd : Reg) (imm5 : BitVec 5) :
    exec (.ldiC rd imm5) s = .next ((s.setReg rd (simm5 imm5)).advance 2#32) := rfl
theorem exec_lwC (rd : Reg) (ra : Reg) :
    exec (.lwC rd ra) s = .next ((s.load .lw rd (s.getReg ra)).advance 2#32) := rfl
theorem exec_lhC (rd : Reg) (ra : Reg) :
    exec (.lhC rd ra) s = .next ((s.load .lh rd (s.getReg ra)).advance 2#32) := rfl
theorem exec_lhuC (rd : Reg) (ra : Reg) :
    exec (.lhuC rd ra) s = .next ((s.load .lhu rd (s.getReg ra)).advance 2#32) := rfl
theorem exec_lbC (rd : Reg) (ra : Reg) :
    exec (.lbC rd ra) s = .next ((s.load .lb rd (s.getReg ra)).advance 2#32) := rfl
theorem exec_swC (rd : Reg) (ra : Reg) :
    exec (.swC rd ra) s = .next ((s.store .sw (s.getReg ra) (s.getReg rd)).advance 2#32) := rfl
theorem exec_shC (rd : Reg) (ra : Reg) :
    exec (.shC rd ra) s = .next ((s.store .sh (s.getReg ra) (s.getReg rd)).advance 2#32) := rfl
theorem exec_lbuC (rd : Reg) (ra : Reg) :
    exec (.lbuC rd ra) s = .next ((s.load .lbu rd (s.getReg ra)).advance 2#32) := rfl
theorem exec_sbC (rd : Reg) (ra : Reg) :
    exec (.sbC rd ra) s = .next ((s.store .sb (s.getReg ra) (s.getReg rd)).advance 2#32) := rfl
theorem exec_popC (rd : Reg) (ra : Reg) :
    exec (.popC rd ra) s = .next ((s.loadPost .lw rd ra 4#32).advance 2#32) := rfl
theorem exec_pushC (rd : Reg) (ra : Reg) :
    exec (.pushC rd ra) s =
      .next (((s.store .sw (s.getReg ra - 4#32) (s.getReg rd)).setReg ra (s.getReg ra - 4#32)).advance 2#32) := rfl
theorem exec_bCondC (c : Cond) (disp8 : BitVec 8) :
    exec (.bCondC c disp8) s =
      if s.flags.cond c then .next (s.jump (bcTarget s.pc disp8)) else .next (s.advance 2#32) := rfl
theorem exec_slliC (rd : Reg) (imm5 : BitVec 5) :
    exec (.slliC rd imm5) s = .next ((s.shiftInto rd .sll (s.getReg rd) (uimm5 imm5) true).advance 2#32) := rfl
theorem exec_srliC (rd : Reg) (imm5 : BitVec 5) :
    exec (.srliC rd imm5) s = .next ((s.shiftInto rd .srl (s.getReg rd) (uimm5 imm5) true).advance 2#32) := rfl
theorem exec_sraiC (rd : Reg) (imm5 : BitVec 5) :
    exec (.sraiC rd imm5) s = .next ((s.shiftInto rd .sra (s.getReg rd) (uimm5 imm5) true).advance 2#32) := rfl
theorem exec_roriC (rd : Reg) (imm5 : BitVec 5) :
    exec (.roriC rd imm5) s = .next ((s.shiftInto rd .ror (s.getReg rd) (uimm5 imm5) true).advance 2#32) := rfl
theorem exec_roliC (rd : Reg) (imm5 : BitVec 5) :
    exec (.roliC rd imm5) s = .next ((s.shiftInto rd .rol (s.getReg rd) (uimm5 imm5) true).advance 2#32) := rfl
theorem exec_extsbC (rd : Reg) (ra : Reg) :
    exec (.extsbC rd ra) s = .next ((s.nzInto rd (extsbResult (s.getReg ra)) true).advance 2#32) := rfl
theorem exec_extshC (rd : Reg) (ra : Reg) :
    exec (.extshC rd ra) s = .next ((s.nzInto rd (extshResult (s.getReg ra)) true).advance 2#32) := rfl
theorem exec_extzbC (rd : Reg) (ra : Reg) :
    exec (.extzbC rd ra) s = .next ((s.nzInto rd (extzbResult (s.getReg ra)) true).advance 2#32) := rfl
theorem exec_extzhC (rd : Reg) (ra : Reg) :
    exec (.extzhC rd ra) s = .next ((s.nzInto rd (extzhResult (s.getReg ra)) true).advance 2#32) := rfl
theorem exec_lwpC (rd : Reg) (imm7 : BitVec 7) :
    exec (.lwpC rd imm7) s = .next ((s.load .lw rd (s.getReg Config.spReg + spOffset imm7)).advance 2#32) := rfl
theorem exec_swpC (rd : Reg) (imm7 : BitVec 7) :
    exec (.swpC rd imm7) s =
      .next ((s.store .sw (s.getReg Config.spReg + spOffset imm7) (s.getReg rd)).advance 2#32) := rfl

end Sys2Proof.Machine
end

