-- ==== Sys2Proof/Laws/HostEvents.lean ====
section
/-! SUPPORT. What the host events with a condition or with many fields can do, once: constructing the CPU again, rebinding
a segment, and resetting the INTC. -/

namespace Sys2Proof.Machine

variable (s : State)

/-! ### Constructing the CPU again -/

@[simp] theorem State.constructCpu_pc : s.constructCpu.pc = Config.bootVector := rfl
@[simp] theorem State.constructCpu_initialized : s.constructCpu.initialized = false := rfl
@[simp] theorem State.constructCpu_miuAttached : s.constructCpu.miuAttached = false := rfl
@[simp] theorem State.constructCpu_halted : s.constructCpu.halted = false := rfl
@[simp] theorem State.constructCpu_faultCount : s.constructCpu.faultCount = 0 := rfl
@[simp] theorem State.constructCpu_breakpoints : s.constructCpu.breakpoints = [] := rfl
@[simp] theorem State.constructCpu_cycles : s.constructCpu.cycles = 0#64 := rfl
@[simp] theorem State.constructCpu_instructions : s.constructCpu.instructions = 0#64 := rfl
@[simp] theorem State.constructCpu_intc : s.constructCpu.intc = s.intc := rfl
@[simp] theorem State.constructCpu_segments : s.constructCpu.segments = s.segments := rfl
@[simp] theorem State.constructCpu_mem : s.constructCpu.mem = s.mem := rfl
@[simp] theorem State.constructCpu_draws : s.constructCpu.draws = s.draws := rfl

/-! ### Rebinding a segment -/

/-- After setup a rebinding is refused. -/
theorem State.setRegion_of_initialized {s : State} (h : s.initialized = true) (seg : BitVec 8) (r : Region) :
    s.setRegion seg r = .refused .rebindAfterSetup := by
  simp [State.setRegion, h]

/-- During setup a rebinding replaces the segment's binding. -/
theorem State.setRegion_of_not_initialized {s : State} (h : s.initialized = false) (seg : BitVec 8) (r : Region) :
    s.setRegion seg r = .next { s with segments := s.segments.set seg.toNat r } := by
  simp [State.setRegion, h]

/-- All a rebinding can do. -/
theorem State.setRegion_next {s t : State} {seg : BitVec 8} {r : Region} (h : s.setRegion seg r = .next t) :
    s.initialized = false ∧ t = { s with segments := s.segments.set seg.toNat r } := by
  by_cases hs : s.initialized = true
  · rw [State.setRegion_of_initialized hs] at h
    cases h
  · rw [Bool.not_eq_true] at hs
    rw [State.setRegion_of_not_initialized hs] at h
    cases h
    exact ⟨hs, rfl⟩

/-- The region of a segment after a rebinding. -/
theorem Segments.get_set (t : Segments) (seg seg' : Nat) (r : Region) :
    (t.set seg r).get seg' = if seg' = seg then r else t.get seg' :=
  Cells.get_set _ _ _ _ _

/-! ### Resetting the INTC -/

@[simp] theorem Intc.reset_mask (c : Intc) : c.reset.mask = 0xFFFFFFFF#32 := rfl
@[simp] theorem Intc.reset_status (c : Intc) : c.reset.status = 0#32 := rfl
@[simp] theorem Intc.reset_prio (c : Intc) : c.reset.prio = 0#32 := rfl
@[simp] theorem Intc.reset_cpuConnected (c : Intc) : c.reset.cpuConnected = c.cpuConnected := rfl
@[simp] theorem Intc.reset_blocked (c : Intc) : c.reset.blocked = c.blocked := rfl

end Sys2Proof.Machine
end

