-- ==== Sys2Proof/Laws/PerInstr.lean ====
section
/-! SUPPORT. Families of statements made per instruction, one lemma per constructor of `Instr`. -/

namespace Sys2Proof.Laws.FixedBits

/-- The code of `i` has the value `fixed` on the bits `mask` (of its low halfword, for a compressed code). -/
def Fixed (i : Instr) (mask fixed : Nat) : Prop :=
  match encode i with
  | .full w => w &&& BitVec.ofNat 32 mask = BitVec.ofNat 32 fixed
  | .short h => h &&& BitVec.ofNat 16 mask = BitVec.ofNat 16 fixed

/-- Every instruction's code carries the fixed bits of its row of spec/opcode_table.json: `mask` and `match`. -/
def Statement (i : Instr) : Prop :=
  match i with
  | .nop => Fixed i 0xF800007E 0x00000000
  | .syscall => Fixed i 0xF800007E 0x00000002
  | .trap => Fixed i 0xF800007E 0x00000004
  | .sdbbp => Fixed i 0xF800007E 0x00000006
  | .br _ => Fixed i 0xF800007F 0x00000008
  | .brl _ => Fixed i 0xF800007F 0x00000009
  | .rte => Fixed i 0xF800007E 0x0000000C
  | .add _ _ _ _ => Fixed i 0xF800007E 0x00000010
  | .addc _ _ _ _ => Fixed i 0xF800007E 0x00000012
  | .sub _ _ _ _ => Fixed i 0xF800007E 0x00000014
  | .subc _ _ _ _ => Fixed i 0xF800007E 0x00000016
  | .cmp _ _ => Fixed i 0xF800007E 0x00000018
  | .neg _ _ _ => Fixed i 0xF800007E 0x0000001E
  | .and _ _ _ _ => Fixed i 0xF800007E 0x00000020
  | .or _ _ _ _ => Fixed i 0xF800007E 0x00000022
  | .not _ _ _ => Fixed i 0xF800007E 0x00000024
  | .xor _ _ _ _ => Fixed i 0xF800007E 0x00000026
  | .bitclr _ _ _ _ => Fixed i 0xF800007E 0x00000028
  | .bitset _ _ _ _ => Fixed i 0xF800007E 0x0000002A
  | .bittst _ _ => Fixed i 0xF800007E 0x0000002C
  | .bittgl _ _ _ _ => Fixed i 0xF800007E 0x0000002E
  | .sll _ _ _ _ => Fixed i 0xF800007E 0x00000030
  | .srl _ _ _ _ => Fixed i 0xF800007E 0x00000034
  | .sra _ _ _ _ => Fixed i 0xF800007E 0x00000036
  | .ror _ _ _ _ => Fixed i 0xF800007E 0x00000038
  | .rorc _ _ _ _ => Fixed i 0xF800007E 0x0000003A
  | .rol _ _ _ _ => Fixed i 0xF800007E 0x0000003C
  | .rolc _ _ _ _ => Fixed i 0xF800007E 0x0000003E
  | .mul _ _ => Fixed i 0xF800007E 0x00000040
  | .mulu _ _ => Fixed i 0xF800007E 0x00000042
  | .div _ _ => Fixed i 0xF800007E 0x00000044
  | .divu _ _ => Fixed i 0xF800007E 0x00000046
  | .mfcel _ => Fixed i 0xF8000C7E 0x00000448
  | .mfceh _ => Fixed i 0xF8000C7E 0x00000848
  | .mfcehl _ _ => Fixed i 0xF8000C7E 0x00000C48
  | .mtcel _ => Fixed i 0xF8000C7E 0x0000044A
  | .mtceh _ => Fixed i 0xF8000C7E 0x0000084A
  | .mtcehl _ _ => Fixed i 0xF8000C7E 0x00000C4A
  | .mfcr _ _ => Fixed i 0xF800007E 0x0000004C
  | .mtcr _ _ => Fixed i 0xF800007E 0x0000004E
  | .mfsr _ _ => Fixed i 0xF800007E 0x00000050
  | .mtsr _ _ => Fixed i 0xF800007E 0x00000052
  | .tCond _ => Fixed i 0xF800007E 0x00000054
  | .mvCond _ _ _ => Fixed i 0xF800007E 0x00000056
  | .extsb _ _ _ => Fixed i 0xF800007E 0x00000058
  | .extsh _ _ _ => Fixed i 0xF800007E 0x0000005A
  | .extzb _ _ _ => Fixed i 0xF800007E 0x0000005C
  | .extzh _ _ _ => Fixed i 0xF800007E 0x0000005E
  | .lcb _ _ => Fixed i 0xF800007E 0x00000060
  | .lcw _ _ => Fixed i 0xF800007E 0x00000062
  | .scb _ _ => Fixed i 0xF800007E 0x00000068
  | .scw _ _ => Fixed i 0xF800007E 0x0000006A
  | .slli _ _ _ _ => Fixed i 0xF800007E 0x00000070
  | .srli _ _ _ _ => Fixed i 0xF800007E 0x00000074
  | .srai _ _ _ _ => Fixed i 0xF800007E 0x00000076
  | .rori _ _ _ _ => Fixed i 0xF800007E 0x00000078
  | .roric _ _ _ _ => Fixed i 0xF800007E 0x0000007A
  | .roli _ _ _ _ => Fixed i 0xF800007E 0x0000007C
  | .rolic _ _ _ _ => Fixed i 0xF800007E 0x0000007E
  | .addi _ _ _ => Fixed i 0xF80E0000 0x08000000
  | .addis _ _ _ => Fixed i 0xF80E0000 0x28000000
  | .cmpi _ _ => Fixed i 0xF80E0000 0x08040000
  | .cmpis _ _ => Fixed i 0xF80E0000 0x28040000
  | .andi _ _ _ => Fixed i 0xF80E0000 0x08080000
  | .andis _ _ _ => Fixed i 0xF80E0000 0x28080000
  | .ori _ _ _ => Fixed i 0xF80E0000 0x080A0000
  | .oris _ _ _ => Fixed i 0xF80E0000 0x280A0000
  | .ldi _ _ => Fixed i 0xF80E0000 0x080C0000
  | .ldis _ _ => Fixed i 0xF80E0000 0x280C0000
  | .j _ => Fixed i 0xF8000001 0x10000000
  | .jl _ => Fixed i 0xF8000001 0x10000001
  | .bCond _ _ => Fixed i 0xF8000001 0x20000000
  | .bCondL _ _ => Fixed i 0xF8000001 0x20000001
  | .lwRix _ _ _ => Fixed i 0xF8000007 0x18000000
  | .lhRix _ _ _ => Fixed i 0xF8000007 0x18000001
  | .lhuRix _ _ _ => Fixed i 0xF8000007 0x18000002
  | .lbRix _ _ _ => Fixed i 0xF8000007 0x18000003
  | .swRix _ _ _ => Fixed i 0xF8000007 0x18000004
  | .shRix _ _ _ => Fixed i 0xF8000007 0x18000005
  | .lbuRix _ _ _ => Fixed i 0xF8000007 0x18000006
  | .sbRix _ _ _ => Fixed i 0xF8000007 0x18000007
  | .lwPi _ _ _ => Fixed i 0xF8000007 0x38000000
  | .lhPi _ _ _ => Fixed i 0xF8000007 0x38000001
  | .lhuPi _ _ _ => Fixed i 0xF8000007 0x38000002
  | .lbPi _ _ _ => Fixed i 0xF8000007 0x38000003
  | .swPi _ _ _ => Fixed i 0xF8000007 0x38000004
  | .shPi _ _ _ => Fixed i 0xF8000007 0x38000005
  | .lbuPi _ _ _ => Fixed i 0xF8000007 0x38000006
  | .sbPi _ _ _ => Fixed i 0xF8000007 0x38000007
  | .lw _ _ _ => Fixed i 0xF8000000 0x80000000
  | .lh _ _ _ => Fixed i 0xF8000000 0x88000000
  | .lhu _ _ _ => Fixed i 0xF8000000 0x90000000
  | .lb _ _ _ => Fixed i 0xF8000000 0x98000000
  | .sw _ _ _ => Fixed i 0xF8000000 0xA0000000
  | .sh _ _ _ => Fixed i 0xF8000000 0xA8000000
  | .lbu _ _ _ => Fixed i 0xF8000000 0xB0000000
  | .sb _ _ _ => Fixed i 0xF8000000 0xB8000000
  | .nopC => Fixed i 0xF00F 0x4000
  | .mvC _ _ => Fixed i 0xF00F 0x4001
  | .brC _ => Fixed i 0xF00F 0x4002
  | .brlC _ => Fixed i 0xF00F 0x4003
  | .breakC => Fixed i 0xF00F 0x4004
  | .addiC _ _ => Fixed i 0xF0E0 0x6000
  | .cmpiC _ _ => Fixed i 0xF0E0 0x6020
  | .andiC _ _ => Fixed i 0xF0E0 0x6040
  | .oriC _ _ => Fixed i 0xF0E0 0x6060
  | .ldiC _ _ => Fixed i 0xF0E0 0x6080
  | .lwC _ _ => Fixed i 0xF00F 0x7000
  | .lhC _ _ => Fixed i 0xF00F 0x7001
  | .lhuC _ _ => Fixed i 0xF00F 0x7002
  | .lbC _ _ => Fixed i 0xF00F 0x7003
  | .swC _ _ => Fixed i 0xF00F 0x7004
  | .shC _ _ => Fixed i 0xF00F 0x7005
  | .lbuC _ _ => Fixed i 0xF00F 0x7006
  | .sbC _ _ => Fixed i 0xF00F 0x7007
  | .popC _ _ => Fixed i 0xF00F 0x7008
  | .pushC _ _ => Fixed i 0xF00F 0x7009
  | .bCondC _ _ => Fixed i 0xF000 0xC000
  | .slliC _ _ => Fixed i 0xF0E0 0xD000
  | .srliC _ _ => Fixed i 0xF0E0 0xD020
  | .sraiC _ _ => Fixed i 0xF0E0 0xD040
  | .roriC _ _ => Fixed i 0xF0E0 0xD060
  | .roliC _ _ => Fixed i 0xF0E0 0xD080
  | .extsbC _ _ => Fixed i 0xF00F 0xE000
  | .extshC _ _ => Fixed i 0xF00F 0xE001
  | .extzbC _ _ => Fixed i 0xF00F 0xE002
  | .extzhC _ _ => Fixed i 0xF00F 0xE003
  | .lwpC _ _ => Fixed i 0xF080 0xF000
  | .swpC _ _ => Fixed i 0xF080 0xF080

theorem nop : Statement .nop := spWord_fixed _ _ _ _ _
theorem syscall : Statement .syscall := spWord_fixed _ _ _ _ _
theorem trap : Statement .trap := spWord_fixed _ _ _ _ _
theorem sdbbp : Statement .sdbbp := spWord_fixed _ _ _ _ _
theorem br (ra : Reg) : Statement (.br ra) := spWord_fixed_link _ _ _ _ _
theorem brl (ra : Reg) : Statement (.brl ra) := spWord_fixed_link _ _ _ _ _
theorem rte : Statement .rte := spWord_fixed _ _ _ _ _
theorem add (rd : Reg) (ra : Reg) (rb : Reg) (cu : Bool) : Statement (.add rd ra rb cu) := spWord_fixed _ _ _ _ _
theorem addc (rd : Reg) (ra : Reg) (rb : Reg) (cu : Bool) : Statement (.addc rd ra rb cu) := spWord_fixed _ _ _ _ _
theorem sub (rd : Reg) (ra : Reg) (rb : Reg) (cu : Bool) : Statement (.sub rd ra rb cu) := spWord_fixed _ _ _ _ _
theorem subc (rd : Reg) (ra : Reg) (rb : Reg) (cu : Bool) : Statement (.subc rd ra rb cu) := spWord_fixed _ _ _ _ _
theorem cmp (ra : Reg) (rb : Reg) : Statement (.cmp ra rb) := spWord_fixed _ _ _ _ _
theorem neg (rd : Reg) (ra : Reg) (cu : Bool) : Statement (.neg rd ra cu) := spWord_fixed _ _ _ _ _
theorem and (rd : Reg) (ra : Reg) (rb : Reg) (cu : Bool) : Statement (.and rd ra rb cu) := spWord_fixed _ _ _ _ _
theorem or (rd : Reg) (ra : Reg) (rb : Reg) (cu : Bool) : Statement (.or rd ra rb cu) := spWord_fixed _ _ _ _ _
theorem not (rd : Reg) (ra : Reg) (cu : Bool) : Statement (.not rd ra cu) := spWord_fixed _ _ _ _ _
theorem xor (rd : Reg) (ra : Reg) (rb : Reg) (cu : Bool) : Statement (.xor rd ra rb cu) := spWord_fixed _ _ _ _ _
theorem bitclr (rd : Reg) (ra : Reg) (k : BitVec 5) (cu : Bool) : Statement (.bitclr rd ra k cu) := spWord_fixed _ _ _ _ _
theorem bitset (rd : Reg) (ra : Reg) (k : BitVec 5) (cu : Bool) : Statement (.bitset rd ra k cu) := spWord_fixed _ _ _ _ _
theorem bittst (ra : Reg) (k : BitVec 5) : Statement (.bittst ra k) := spWord_fixed _ _ _ _ _
theorem bittgl (rd : Reg) (ra : Reg) (k : BitVec 5) (cu : Bool) : Statement (.bittgl rd ra k cu) := spWord_fixed _ _ _ _ _
theorem sll (rd : Reg) (ra : Reg) (rb : Reg) (cu : Bool) : Statement (.sll rd ra rb cu) := spWord_fixed _ _ _ _ _
theorem srl (rd : Reg) (ra : Reg) (rb : Reg) (cu : Bool) : Statement (.srl rd ra rb cu) := spWord_fixed _ _ _ _ _
theorem sra (rd : Reg) (ra : Reg) (rb : Reg) (cu : Bool) : Statement (.sra rd ra rb cu) := spWord_fixed _ _ _ _ _
theorem ror (rd : Reg) (ra : Reg) (rb : Reg) (cu : Bool) : Statement (.ror rd ra rb cu) := spWord_fixed _ _ _ _ _
theorem rorc (rd : Reg) (ra : Reg) (rb : Reg) (cu : Bool) : Statement (.rorc rd ra rb cu) := spWord_fixed _ _ _ _ _
theorem rol (rd : Reg) (ra : Reg) (rb : Reg) (cu : Bool) : Statement (.rol rd ra rb cu) := spWord_fixed _ _ _ _ _
theorem rolc (rd : Reg) (ra : Reg) (rb : Reg) (cu : Bool) : Statement (.rolc rd ra rb cu) := spWord_fixed _ _ _ _ _
theorem mul (ra : Reg) (rb : Reg) : Statement (.mul ra rb) := spWord_fixed _ _ _ _ _
theorem mulu (ra : Reg) (rb : Reg) : Statement (.mulu ra rb) := spWord_fixed _ _ _ _ _
theorem div (ra : Reg) (rb : Reg) : Statement (.div ra rb) := spWord_fixed _ _ _ _ _
theorem divu (ra : Reg) (rb : Reg) : Statement (.divu ra rb) := spWord_fixed _ _ _ _ _
theorem mfcel (rd : Reg) : Statement (.mfcel rd) := spWord_fixed_sel _ _ _ _ _
theorem mfceh (rd : Reg) : Statement (.mfceh rd) := spWord_fixed_sel _ _ _ _ _
theorem mfcehl (rd : Reg) (ra : Reg) : Statement (.mfcehl rd ra) := spWord_fixed_sel _ _ _ _ _
theorem mtcel (rd : Reg) : Statement (.mtcel rd) := spWord_fixed_sel _ _ _ _ _
theorem mtceh (rd : Reg) : Statement (.mtceh rd) := spWord_fixed_sel _ _ _ _ _
theorem mtcehl (rd : Reg) (ra : Reg) : Statement (.mtcehl rd ra) := spWord_fixed_sel _ _ _ _ _
theorem mfcr (rd : Reg) (n : SpecialIdx) : Statement (.mfcr rd n) := spWord_fixed _ _ _ _ _
theorem mtcr (rd : Reg) (n : SpecialIdx) : Statement (.mtcr rd n) := spWord_fixed _ _ _ _ _
theorem mfsr (rd : Reg) (n : SpecialIdx) : Statement (.mfsr rd n) := spWord_fixed _ _ _ _ _
theorem mtsr (rd : Reg) (n : SpecialIdx) : Statement (.mtsr rd n) := spWord_fixed _ _ _ _ _
theorem tCond (c : Cond) : Statement (.tCond c) := spWord_fixed _ _ _ _ _
theorem mvCond (c : Cond) (rd : Reg) (ra : Reg) : Statement (.mvCond c rd ra) := spWord_fixed _ _ _ _ _
theorem extsb (rd : Reg) (ra : Reg) (cu : Bool) : Statement (.extsb rd ra cu) := spWord_fixed _ _ _ _ _
theorem extsh (rd : Reg) (ra : Reg) (cu : Bool) : Statement (.extsh rd ra cu) := spWord_fixed _ _ _ _ _
theorem extzb (rd : Reg) (ra : Reg) (cu : Bool) : Statement (.extzb rd ra cu) := spWord_fixed _ _ _ _ _
theorem extzh (rd : Reg) (ra : Reg) (cu : Bool) : Statement (.extzh rd ra cu) := spWord_fixed _ _ _ _ _
theorem lcb (rd : Reg) (ra : Reg) : Statement (.lcb rd ra) := spWord_fixed _ _ _ _ _
theorem lcw (rd : Reg) (ra : Reg) : Statement (.lcw rd ra) := spWord_fixed _ _ _ _ _
theorem scb (rd : Reg) (ra : Reg) : Statement (.scb rd ra) := spWord_fixed _ _ _ _ _
theorem scw (rd : Reg) (ra : Reg) : Statement (.scw rd ra) := spWord_fixed _ _ _ _ _
theorem slli (rd : Reg) (ra : Reg) (imm5 : BitVec 5) (cu : Bool) : Statement (.slli rd ra imm5 cu) := spWord_fixed _ _ _ _ _
theorem srli (rd : Reg) (ra : Reg) (imm5 : BitVec 5) (cu : Bool) : Statement (.srli rd ra imm5 cu) := spWord_fixed _ _ _ _ _
theorem srai (rd : Reg) (ra : Reg) (imm5 : BitVec 5) (cu : Bool) : Statement (.srai rd ra imm5 cu) := spWord_fixed _ _ _ _ _
theorem rori (rd : Reg) (ra : Reg) (imm5 : BitVec 5) (cu : Bool) : Statement (.rori rd ra imm5 cu) := spWord_fixed _ _ _ _ _
theorem roric (rd : Reg) (ra : Reg) (imm5 : BitVec 5) (cu : Bool) : Statement (.roric rd ra imm5 cu) := spWord_fixed _ _ _ _ _
theorem roli (rd : Reg) (ra : Reg) (imm5 : BitVec 5) (cu : Bool) : Statement (.roli rd ra imm5 cu) := spWord_fixed _ _ _ _ _
theorem rolic (rd : Reg) (ra : Reg) (imm5 : BitVec 5) (cu : Bool) : Statement (.rolic rd ra imm5 cu) := spWord_fixed _ _ _ _ _
theorem addi (rd : Reg) (imm16 : BitVec 16) (cu : Bool) : Statement (.addi rd imm16 cu) := iWord_fixed _ _ _ _ _
theorem addis (rd : Reg) (imm16 : BitVec 16) (cu : Bool) : Statement (.addis rd imm16 cu) := iWord_fixed _ _ _ _ _
theorem cmpi (rd : Reg) (imm16 : BitVec 16) : Statement (.cmpi rd imm16) := iWord_fixed _ _ _ _ _
theorem cmpis (rd : Reg) (imm16 : BitVec 16) : Statement (.cmpis rd imm16) := iWord_fixed _ _ _ _ _
theorem andi (rd : Reg) (imm16 : BitVec 16) (cu : Bool) : Statement (.andi rd imm16 cu) := iWord_fixed _ _ _ _ _
theorem andis (rd : Reg) (imm16 : BitVec 16) (cu : Bool) : Statement (.andis rd imm16 cu) := iWord_fixed _ _ _ _ _
theorem ori (rd : Reg) (imm16 : BitVec 16) (cu : Bool) : Statement (.ori rd imm16 cu) := iWord_fixed _ _ _ _ _
theorem oris (rd : Reg) (imm16 : BitVec 16) (cu : Bool) : Statement (.oris rd imm16 cu) := iWord_fixed _ _ _ _ _
theorem ldi (rd : Reg) (imm16 : BitVec 16) : Statement (.ldi rd imm16) := iWord_fixed _ _ _ _ _
theorem ldis (rd : Reg) (imm16 : BitVec 16) : Statement (.ldis rd imm16) := iWord_fixed _ _ _ _ _
theorem j (disp24 : BitVec 24) : Statement (.j disp24) := jWord_fixed _ _
theorem jl (disp24 : BitVec 24) : Statement (.jl disp24) := jWord_fixed _ _
theorem bCond (c : Cond) (disp22 : BitVec 22) : Statement (.bCond c disp22) := bWord_fixed _ _ _
theorem bCondL (c : Cond) (disp22 : BitVec 22) : Statement (.bCondL c disp22) := bWord_fixed _ _ _
theorem lwRix (rd : Reg) (ra : Reg) (imm12 : BitVec 12) : Statement (.lwRix rd ra imm12) := rixWord_fixed _ _ _ _ _
theorem lhRix (rd : Reg) (ra : Reg) (imm12 : BitVec 12) : Statement (.lhRix rd ra imm12) := rixWord_fixed _ _ _ _ _
theorem lhuRix (rd : Reg) (ra : Reg) (imm12 : BitVec 12) : Statement (.lhuRix rd ra imm12) := rixWord_fixed _ _ _ _ _
theorem lbRix (rd : Reg) (ra : Reg) (imm12 : BitVec 12) : Statement (.lbRix rd ra imm12) := rixWord_fixed _ _ _ _ _
theorem swRix (rd : Reg) (ra : Reg) (imm12 : BitVec 12) : Statement (.swRix rd ra imm12) := rixWord_fixed _ _ _ _ _
theorem shRix (rd : Reg) (ra : Reg) (imm12 : BitVec 12) : Statement (.shRix rd ra imm12) := rixWord_fixed _ _ _ _ _
theorem lbuRix (rd : Reg) (ra : Reg) (imm12 : BitVec 12) : Statement (.lbuRix rd ra imm12) := rixWord_fixed _ _ _ _ _
theorem sbRix (rd : Reg) (ra : Reg) (imm12 : BitVec 12) : Statement (.sbRix rd ra imm12) := rixWord_fixed _ _ _ _ _
theorem lwPi (rd : Reg) (ra : Reg) (imm12 : BitVec 12) : Statement (.lwPi rd ra imm12) := rixWord_fixed _ _ _ _ _
theorem lhPi (rd : Reg) (ra : Reg) (imm12 : BitVec 12) : Statement (.lhPi rd ra imm12) := rixWord_fixed _ _ _ _ _
theorem lhuPi (rd : Reg) (ra : Reg) (imm12 : BitVec 12) : Statement (.lhuPi rd ra imm12) := rixWord_fixed _ _ _ _ _
theorem lbPi (rd : Reg) (ra : Reg) (imm12 : BitVec 12) : Statement (.lbPi rd ra imm12) := rixWord_fixed _ _ _ _ _
theorem swPi (rd : Reg) (ra : Reg) (imm12 : BitVec 12) : Statement (.swPi rd ra imm12) := rixWord_fixed _ _ _ _ _
theorem shPi (rd : Reg) (ra : Reg) (imm12 : BitVec 12) : Statement (.shPi rd ra imm12) := rixWord_fixed _ _ _ _ _
theorem lbuPi (rd : Reg) (ra : Reg) (imm12 : BitVec 12) : Statement (.lbuPi rd ra imm12) := rixWord_fixed _ _ _ _ _
theorem sbPi (rd : Reg) (ra : Reg) (imm12 : BitVec 12) : Statement (.sbPi rd ra imm12) := rixWord_fixed _ _ _ _ _
theorem lw (rd : Reg) (ra : Reg) (imm15 : BitVec 15) : Statement (.lw rd ra imm15) := memWord_fixed _ _ _ _
theorem lh (rd : Reg) (ra : Reg) (imm15 : BitVec 15) : Statement (.lh rd ra imm15) := memWord_fixed _ _ _ _
theorem lhu (rd : Reg) (ra : Reg) (imm15 : BitVec 15) : Statement (.lhu rd ra imm15) := memWord_fixed _ _ _ _
theorem lb (rd : Reg) (ra : Reg) (imm15 : BitVec 15) : Statement (.lb rd ra imm15) := memWord_fixed _ _ _ _
theorem sw (rd : Reg) (ra : Reg) (imm15 : BitVec 15) : Statement (.sw rd ra imm15) := memWord_fixed _ _ _ _
theorem sh (rd : Reg) (ra : Reg) (imm15 : BitVec 15) : Statement (.sh rd ra imm15) := memWord_fixed _ _ _ _
theorem lbu (rd : Reg) (ra : Reg) (imm15 : BitVec 15) : Statement (.lbu rd ra imm15) := memWord_fixed _ _ _ _
theorem sb (rd : Reg) (ra : Reg) (imm15 : BitVec 15) : Statement (.sb rd ra imm15) := memWord_fixed _ _ _ _
theorem nopC : Statement .nopC := crrHalf_fixed _ _ _ _
theorem mvC (rd : Reg) (ra : Reg) : Statement (.mvC rd ra) := crrHalf_fixed _ _ _ _
theorem brC (ra : Reg) : Statement (.brC ra) := crrHalf_fixed _ _ _ _
theorem brlC (ra : Reg) : Statement (.brlC ra) := crrHalf_fixed _ _ _ _
theorem breakC : Statement .breakC := crrHalf_fixed _ _ _ _
theorem addiC (rd : Reg) (imm5 : BitVec 5) : Statement (.addiC rd imm5) := criHalf_fixed _ _ _ _
theorem cmpiC (rd : Reg) (imm5 : BitVec 5) : Statement (.cmpiC rd imm5) := criHalf_fixed _ _ _ _
theorem andiC (rd : Reg) (imm5 : BitVec 5) : Statement (.andiC rd imm5) := criHalf_fixed _ _ _ _
theorem oriC (rd : Reg) (imm5 : BitVec 5) : Statement (.oriC rd imm5) := criHalf_fixed _ _ _ _
theorem ldiC (rd : Reg) (imm5 : BitVec 5) : Statement (.ldiC rd imm5) := criHalf_fixed _ _ _ _
theorem lwC (rd : Reg) (ra : Reg) : Statement (.lwC rd ra) := crrHalf_fixed _ _ _ _
theorem lhC (rd : Reg) (ra : Reg) : Statement (.lhC rd ra) := crrHalf_fixed _ _ _ _
theorem lhuC (rd : Reg) (ra : Reg) : Statement (.lhuC rd ra) := crrHalf_fixed _ _ _ _
theorem lbC (rd : Reg) (ra : Reg) : Statement (.lbC rd ra) := crrHalf_fixed _ _ _ _
theorem swC (rd : Reg) (ra : Reg) : Statement (.swC rd ra) := crrHalf_fixed _ _ _ _
theorem shC (rd : Reg) (ra : Reg) : Statement (.shC rd ra) := crrHalf_fixed _ _ _ _
theorem lbuC (rd : Reg) (ra : Reg) : Statement (.lbuC rd ra) := crrHalf_fixed _ _ _ _
theorem sbC (rd : Reg) (ra : Reg) : Statement (.sbC rd ra) := crrHalf_fixed _ _ _ _
theorem popC (rd : Reg) (ra : Reg) : Statement (.popC rd ra) := crrHalf_fixed _ _ _ _
theorem pushC (rd : Reg) (ra : Reg) : Statement (.pushC rd ra) := crrHalf_fixed _ _ _ _
theorem bCondC (c : Cond) (disp8 : BitVec 8) : Statement (.bCondC c disp8) := cbHalf_fixed _ _
theorem slliC (rd : Reg) (imm5 : BitVec 5) : Statement (.slliC rd imm5) := criHalf_fixed _ _ _ _
theorem srliC (rd : Reg) (imm5 : BitVec 5) : Statement (.srliC rd imm5) := criHalf_fixed _ _ _ _
theorem sraiC (rd : Reg) (imm5 : BitVec 5) : Statement (.sraiC rd imm5) := criHalf_fixed _ _ _ _
theorem roriC (rd : Reg) (imm5 : BitVec 5) : Statement (.roriC rd imm5) := criHalf_fixed _ _ _ _
theorem roliC (rd : Reg) (imm5 : BitVec 5) : Statement (.roliC rd imm5) := criHalf_fixed _ _ _ _
theorem extsbC (rd : Reg) (ra : Reg) : Statement (.extsbC rd ra) := crrHalf_fixed _ _ _ _
theorem extshC (rd : Reg) (ra : Reg) : Statement (.extshC rd ra) := crrHalf_fixed _ _ _ _
theorem extzbC (rd : Reg) (ra : Reg) : Statement (.extzbC rd ra) := crrHalf_fixed _ _ _ _
theorem extzhC (rd : Reg) (ra : Reg) : Statement (.extzhC rd ra) := crrHalf_fixed _ _ _ _
theorem lwpC (rd : Reg) (imm7 : BitVec 7) : Statement (.lwpC rd imm7) := cspHalf_fixed _ _ _
theorem swpC (rd : Reg) (imm7 : BitVec 7) : Statement (.swpC rd imm7) := cspHalf_fixed _ _ _

end Sys2Proof.Laws.FixedBits
end

