-- ==== Sys2Proof/Laws/Step.lean ====
section
/-! SUPPORT. What one step can do, once: the items of R100 as equations, and the inversion of `step`. -/

namespace Sys2Proof.Machine

variable (s : State)

/-! ### The fetched word -/

/-- The decoder over a word's bytes is the decoder over the word. -/
theorem decodeBytes_bytesOfWord (w : Word) : decodeBytes (bytesOfWord w) = decode w := by
  have h : wordOfBytes (field w 0 8) (field w 8 8) (field w 16 8) (field w 24 8) = w := by
    apply BitVec.eq_of_getLsbD_eq
    intro i hi
    simp only [wordOfBytes, BitVec.getLsbD_or, getLsbD_place, getLsbD_field]
    interval_cases i <;> simp
  show decode (wordOfBytes _ _ _ _) = decode w
  rw [h]

/-- What the cycle decodes is the word a read at pc gives. -/
theorem State.decode_fetchBytes (pc : Word) : decodeBytes (s.fetchBytes pc) = decode (s.memRead pc .word).1 :=
  decodeBytes_bytesOfWord _

/-! ### The updates of the cycle -/

/-- An illegal fetch is the entry of the cause 0xFF. -/
theorem State.illegalFetch_eq : s.illegalFetch = s.takeException 0xFF#8 := rfl

/-- A StepFault of a CPU that is not halted. -/
theorem State.stepFault_eq {s : State} (h : s.halted = false) :
    s.stepFault = { s with faultCount := s.faultCount + 1, halted := decide (100 < s.faultCount + 1) } := by
  have e : s.stepFault =
      { s with faultCount := s.faultCount + 1, halted := s.halted || decide (100 < s.faultCount + 1) } := rfl
  rw [e, h, Bool.false_or]

/-- What a running state is. -/
theorem State.running_iff : s.running = true ↔
    s.initialized = true ∧ s.halted = false ∧ s.paused = false ∧ s.miuAttached = true := by
  simp only [State.running, Bool.and_eq_true, Bool.not_eq_true', and_assoc]

/-- Whether a breakpoint is set at pc. -/
theorem State.atBreakpoint_iff : s.atBreakpoint = true ↔ s.pc.toNat ∈ s.breakpoints := by
  simp [State.atBreakpoint]

/-! ### The items of R100 -/

variable {s}

theorem step_of_not_initialized (h : s.initialized = false) : step s = .fault .notInitialized := by
  unfold step State.cycle
  rw [h]
  rfl

theorem step_of_idle (h : s.initialized = true) (h2 : s.halted = true ∨ s.paused = true) : step s = .next s := by
  unfold step State.cycle
  rcases h2 with h2 | h2 <;> simp [h, h2]

theorem step_of_detached (h : s.initialized = true) (h2 : s.halted = false) (h3 : s.paused = false)
    (h4 : s.miuAttached = false) : step s = .next s.stepFault := by
  unfold step State.cycle
  simp [h, h2, h3, h4]

theorem step_of_not_fetchable (h : s.running = true) (h2 : s.fetchable s.pc = false) :
    step s = .next s.illegalFetch := by
  obtain ⟨a, b, c, d⟩ := s.running_iff.1 h
  unfold step State.cycle
  simp [a, b, c, d, h2]

theorem step_of_breakpoint (h : s.running = true) (h2 : s.fetchable s.pc = true) (h3 : s.atBreakpoint = true) :
    step s = .next { s with paused := true } := by
  obtain ⟨a, b, c, d⟩ := s.running_iff.1 h
  unfold step State.cycle
  simp [a, b, c, d, h2, h3]

theorem step_of_reserved (h : s.running = true) (h2 : s.fetchable s.pc = true) (h3 : s.atBreakpoint = false)
    {e : Reserved} (h4 : decode (s.memRead s.pc .word).1 = .error e) : step s = .next s.stepFault := by
  obtain ⟨a, b, c, d⟩ := s.running_iff.1 h
  unfold step State.cycle State.runInstruction
  rw [State.decode_fetchBytes, h4]
  simp [a, b, c, d, h2, h3]

theorem step_of_decoded (h : s.running = true) (h2 : s.fetchable s.pc = true) (h3 : s.atBreakpoint = false)
    {i : Instr} (h4 : decode (s.memRead s.pc .word).1 = .ok i) {t : State} (h5 : exec i s = .next t) :
    step s = .next t.retire := by
  obtain ⟨a, b, c, d⟩ := s.running_iff.1 h
  unfold step State.cycle State.runInstruction
  rw [State.decode_fetchBytes, h4]
  simp [a, b, c, d, h2, h3, h5]

/-! ### What a step can do -/

/-- Every next state of a step: the same state (halted or paused), a StepFault, an illegal fetch, a breakpoint pause, or
the retirement of what the decoded instruction answers. -/
theorem step_cases {t : State} (h : step s = .next t) :
    s.initialized = true ∧
      ((t = s ∧ (s.halted = true ∨ s.paused = true))
        ∨ (s.halted = false ∧ s.paused = false ∧
          (t = s.stepFault
            ∨ (s.fetchable s.pc = false ∧ t = s.illegalFetch)
            ∨ (s.atBreakpoint = true ∧ t = { s with paused := true })
            ∨ ∃ i u, decode (s.memRead s.pc .word).1 = .ok i ∧ exec i s = .next u ∧ t = u.retire))) := by
  unfold step State.cycle at h
  cases h1 : s.initialized
  · simp [h1] at h
  refine ⟨rfl, ?_⟩
  by_cases h2 : s.halted = true ∨ s.paused = true
  · left
    have e : step s = .next s := step_of_idle h1 h2
    unfold step State.cycle at e
    rw [e] at h
    cases h
    exact ⟨rfl, h2⟩
  right
  have h3 : s.halted = false := by simpa using fun e => h2 (.inl e)
  have h4 : s.paused = false := by simpa using fun e => h2 (.inr e)
  refine ⟨h3, h4, ?_⟩
  simp only [h1, h3, h4, Bool.not_true, Bool.false_eq_true, if_false, Bool.or_self] at h
  cases h5 : s.miuAttached
  · simp only [h5, Bool.not_false, if_true] at h
    cases h
    exact .inl rfl
  cases h6 : s.fetchable s.pc
  · simp only [h5, h6, Bool.not_true, Bool.not_false, Bool.false_eq_true, if_false, if_true] at h
    cases h
    exact .inr (.inl ⟨rfl, rfl⟩)
  cases h7 : s.atBreakpoint
  · simp only [h5, h6, h7, Bool.not_true, Bool.false_eq_true, if_false, State.runInstruction,
      State.decode_fetchBytes] at h
    cases h8 : decode (s.memRead s.pc .word).1 with
    | error e =>
      rw [h8] at h
      cases h
      exact .inl rfl
    | ok i =>
      rw [h8] at h
      dsimp only at h
      cases h9 : exec i s with
      | next u =>
        rw [h9] at h
        cases h
        exact .inr (.inr (.inr ⟨i, u, rfl, h9, rfl⟩))
      | fault f => rw [h9] at h; cases h
      | refused r => rw [h9] at h; cases h
  · simp only [h5, h6, h7, Bool.not_true, Bool.false_eq_true, if_false, if_true] at h
    cases h
    exact .inr (.inr (.inl ⟨rfl, by rw [h3]⟩))

end Sys2Proof.Machine
end

