-- ==== Sys2Proof/Tests/Slice0.lean ====
section
/-! SUPPORT. The model's own tests, each a named theorem on fixed values: the well-formedness checks, the decoding of
every constructor from a word laid out by hand from the spec's encoding tables, one step of every instruction with the
expected result taken from the spec's worked examples, the exceptions, faults and host events of 95_test_vectors.md
section 2.6, and for every obligation that has hypotheses a state that meets them. -/

namespace Sys2Proof.Tests

open Sys2Proof.Machine

/-! ## Well-formedness: each check refuses an ill-formed term (R23: the compressed forms reach r0 to r15) -/

theorem test_wf_register_moves :
    (Instr.mvC 16#5 15#5).wellFormed = false
      ∧ (Instr.mvC 15#5 16#5).wellFormed = false
      ∧ (Instr.mvC 15#5 15#5).wellFormed = true
      ∧ (Instr.brC 16#5).wellFormed = false
      ∧ (Instr.brC 15#5).wellFormed = true
      ∧ (Instr.brlC 16#5).wellFormed = false
      ∧ (Instr.brlC 15#5).wellFormed = true := by decide

theorem test_wf_immediates :
    (Instr.addiC 16#5 0).wellFormed = false
      ∧ (Instr.addiC 15#5 0).wellFormed = true
      ∧ (Instr.cmpiC 16#5 0).wellFormed = false
      ∧ (Instr.cmpiC 15#5 0).wellFormed = true
      ∧ (Instr.andiC 16#5 0).wellFormed = false
      ∧ (Instr.andiC 15#5 0).wellFormed = true
      ∧ (Instr.oriC 16#5 0).wellFormed = false
      ∧ (Instr.oriC 15#5 0).wellFormed = true
      ∧ (Instr.ldiC 16#5 0).wellFormed = false
      ∧ (Instr.ldiC 15#5 0).wellFormed = true := by decide

theorem test_wf_loads_and_stores :
    (Instr.lwC 16#5 15#5).wellFormed = false
      ∧ (Instr.lwC 15#5 16#5).wellFormed = false
      ∧ (Instr.lwC 15#5 15#5).wellFormed = true
      ∧ (Instr.lhC 16#5 15#5).wellFormed = false
      ∧ (Instr.lhC 15#5 16#5).wellFormed = false
      ∧ (Instr.lhC 15#5 15#5).wellFormed = true
      ∧ (Instr.lhuC 16#5 15#5).wellFormed = false
      ∧ (Instr.lhuC 15#5 16#5).wellFormed = false
      ∧ (Instr.lhuC 15#5 15#5).wellFormed = true
      ∧ (Instr.lbC 16#5 15#5).wellFormed = false
      ∧ (Instr.lbC 15#5 16#5).wellFormed = false
      ∧ (Instr.lbC 15#5 15#5).wellFormed = true
      ∧ (Instr.swC 16#5 15#5).wellFormed = false
      ∧ (Instr.swC 15#5 16#5).wellFormed = false
      ∧ (Instr.swC 15#5 15#5).wellFormed = true
      ∧ (Instr.shC 16#5 15#5).wellFormed = false
      ∧ (Instr.shC 15#5 16#5).wellFormed = false
      ∧ (Instr.shC 15#5 15#5).wellFormed = true
      ∧ (Instr.lbuC 16#5 15#5).wellFormed = false
      ∧ (Instr.lbuC 15#5 16#5).wellFormed = false
      ∧ (Instr.lbuC 15#5 15#5).wellFormed = true
      ∧ (Instr.sbC 16#5 15#5).wellFormed = false
      ∧ (Instr.sbC 15#5 16#5).wellFormed = false
      ∧ (Instr.sbC 15#5 15#5).wellFormed = true
      ∧ (Instr.popC 16#5 15#5).wellFormed = false
      ∧ (Instr.popC 15#5 16#5).wellFormed = false
      ∧ (Instr.popC 15#5 15#5).wellFormed = true
      ∧ (Instr.pushC 16#5 15#5).wellFormed = false
      ∧ (Instr.pushC 15#5 16#5).wellFormed = false
      ∧ (Instr.pushC 15#5 15#5).wellFormed = true := by decide

theorem test_wf_shifts :
    (Instr.slliC 16#5 0).wellFormed = false
      ∧ (Instr.slliC 15#5 0).wellFormed = true
      ∧ (Instr.srliC 16#5 0).wellFormed = false
      ∧ (Instr.srliC 15#5 0).wellFormed = true
      ∧ (Instr.sraiC 16#5 0).wellFormed = false
      ∧ (Instr.sraiC 15#5 0).wellFormed = true
      ∧ (Instr.roriC 16#5 0).wellFormed = false
      ∧ (Instr.roriC 15#5 0).wellFormed = true
      ∧ (Instr.roliC 16#5 0).wellFormed = false
      ∧ (Instr.roliC 15#5 0).wellFormed = true := by decide

theorem test_wf_extensions :
    (Instr.extsbC 16#5 15#5).wellFormed = false
      ∧ (Instr.extsbC 15#5 16#5).wellFormed = false
      ∧ (Instr.extsbC 15#5 15#5).wellFormed = true
      ∧ (Instr.extshC 16#5 15#5).wellFormed = false
      ∧ (Instr.extshC 15#5 16#5).wellFormed = false
      ∧ (Instr.extshC 15#5 15#5).wellFormed = true
      ∧ (Instr.extzbC 16#5 15#5).wellFormed = false
      ∧ (Instr.extzbC 15#5 16#5).wellFormed = false
      ∧ (Instr.extzbC 15#5 15#5).wellFormed = true
      ∧ (Instr.extzhC 16#5 15#5).wellFormed = false
      ∧ (Instr.extzhC 15#5 16#5).wellFormed = false
      ∧ (Instr.extzhC 15#5 15#5).wellFormed = true := by decide

theorem test_wf_sp_relative :
    (Instr.lwpC 16#5 0).wellFormed = false
      ∧ (Instr.lwpC 15#5 0).wellFormed = true
      ∧ (Instr.swpC 16#5 0).wellFormed = false
      ∧ (Instr.swpC 15#5 0).wellFormed = true := by decide

/-! ## Decoding: a word for every constructor, its fields laid out from 30_encoding.md R110 to R116 and the opcode table's
fixed bits; ignored bits are set to 1 -/

theorem test_decode_system_and_jumps :
    decode 0b00000111111111111111111110000001#32 = .ok .nop
      ∧ decode 0b00000111111111111111111110000011#32 = .ok .syscall
      ∧ decode 0b00000111111111111111111110000101#32 = .ok .trap
      ∧ decode 0b00000111111111111111111110000111#32 = .ok .sdbbp
      ∧ decode 0b00000111111101101111111110001000#32 = .ok (.br 0xD#5)
      ∧ decode 0b00000111111101101111111110001001#32 = .ok (.brl 0xD#5)
      ∧ decode 0b00000111111111111111111110001101#32 = .ok .rte := by decide

theorem test_decode_add_subtract :
    decode 0b00000111001101101101101110010001#32 = .ok (.add 0x13#5 0xD#5 0x16#5 true)
      ∧ decode 0b00000111001101101101101110010011#32 = .ok (.addc 0x13#5 0xD#5 0x16#5 true)
      ∧ decode 0b00000111001101101101101110010101#32 = .ok (.sub 0x13#5 0xD#5 0x16#5 true)
      ∧ decode 0b00000111001101101101101110010111#32 = .ok (.subc 0x13#5 0xD#5 0x16#5 true)
      ∧ decode 0b00000111111101101101101110011001#32 = .ok (.cmp 0xD#5 0x16#5)
      ∧ decode 0b00000111001101101111111110011111#32 = .ok (.neg 0x13#5 0xD#5 true) := by decide

theorem test_decode_logical :
    decode 0b00000111001101101101101110100001#32 = .ok (.and 0x13#5 0xD#5 0x16#5 true)
      ∧ decode 0b00000111001101101101101110100011#32 = .ok (.or 0x13#5 0xD#5 0x16#5 true)
      ∧ decode 0b00000111001101101111111110100101#32 = .ok (.not 0x13#5 0xD#5 true)
      ∧ decode 0b00000111001101101101101110100111#32 = .ok (.xor 0x13#5 0xD#5 0x16#5 true)
      ∧ decode 0b00000111001101101110101110101001#32 = .ok (.bitclr 0x13#5 0xD#5 0x1A#5 true)
      ∧ decode 0b00000111001101101110101110101011#32 = .ok (.bitset 0x13#5 0xD#5 0x1A#5 true)
      ∧ decode 0b00000111111101101110101110101101#32 = .ok (.bittst 0xD#5 0x1A#5)
      ∧ decode 0b00000111001101101110101110101111#32 = .ok (.bittgl 0x13#5 0xD#5 0x1A#5 true) := by decide

theorem test_decode_shift_register :
    decode 0b00000111001101101101101110110001#32 = .ok (.sll 0x13#5 0xD#5 0x16#5 true)
      ∧ decode 0b00000111001101101101101110110101#32 = .ok (.srl 0x13#5 0xD#5 0x16#5 true)
      ∧ decode 0b00000111001101101101101110110111#32 = .ok (.sra 0x13#5 0xD#5 0x16#5 true)
      ∧ decode 0b00000111001101101101101110111001#32 = .ok (.ror 0x13#5 0xD#5 0x16#5 true)
      ∧ decode 0b00000111001101101101101110111011#32 = .ok (.rorc 0x13#5 0xD#5 0x16#5 true)
      ∧ decode 0b00000111001101101101101110111101#32 = .ok (.rol 0x13#5 0xD#5 0x16#5 true)
      ∧ decode 0b00000111001101101101101110111111#32 = .ok (.rolc 0x13#5 0xD#5 0x16#5 true) := by decide

theorem test_decode_multiply_divide :
    decode 0b00000111111101101101101111000001#32 = .ok (.mul 0xD#5 0x16#5)
      ∧ decode 0b00000111111101101101101111000011#32 = .ok (.mulu 0xD#5 0x16#5)
      ∧ decode 0b00000111111101101101101111000101#32 = .ok (.div 0xD#5 0x16#5)
      ∧ decode 0b00000111111101101101101111000111#32 = .ok (.divu 0xD#5 0x16#5)
      ∧ decode 0b00000111001111111111011111001001#32 = .ok (.mfcel 0x13#5)
      ∧ decode 0b00000111001111111111101111001001#32 = .ok (.mfceh 0x13#5)
      ∧ decode 0b00000111001101101111111111001001#32 = .ok (.mfcehl 0x13#5 0xD#5)
      ∧ decode 0b00000111001111111111011111001011#32 = .ok (.mtcel 0x13#5)
      ∧ decode 0b00000111001111111111101111001011#32 = .ok (.mtceh 0x13#5)
      ∧ decode 0b00000111001101101111111111001011#32 = .ok (.mtcehl 0x13#5 0xD#5) := by decide

theorem test_decode_special :
    decode 0b00000111001111111011101111001101#32 = .ok (.mfcr 0x13#5 0xE#5)
      ∧ decode 0b00000111001111111011101111001111#32 = .ok (.mtcr 0x13#5 0xE#5)
      ∧ decode 0b00000111001111111011101111010001#32 = .ok (.mfsr 0x13#5 0xE#5)
      ∧ decode 0b00000111001111111011101111010011#32 = .ok (.mtsr 0x13#5 0xE#5)
      ∧ decode 0b00000111111111111110011111010101#32 = .ok (.tCond .lt)
      ∧ decode 0b00000111001101101110011111010111#32 = .ok (.mvCond .lt 0x13#5 0xD#5) := by decide

theorem test_decode_extensions :
    decode 0b00000111001101101111111111011001#32 = .ok (.extsb 0x13#5 0xD#5 true)
      ∧ decode 0b00000111001101101111111111011011#32 = .ok (.extsh 0x13#5 0xD#5 true)
      ∧ decode 0b00000111001101101111111111011101#32 = .ok (.extzb 0x13#5 0xD#5 true)
      ∧ decode 0b00000111001101101111111111011111#32 = .ok (.extzh 0x13#5 0xD#5 true) := by decide

theorem test_decode_register_indirect :
    decode 0b00000111001101101111111111100001#32 = .ok (.lcb 0x13#5 0xD#5)
      ∧ decode 0b00000111001101101111111111100011#32 = .ok (.lcw 0x13#5 0xD#5)
      ∧ decode 0b00000111001101101111111111101001#32 = .ok (.scb 0x13#5 0xD#5)
      ∧ decode 0b00000111001101101111111111101011#32 = .ok (.scw 0x13#5 0xD#5) := by decide

theorem test_decode_shift_immediate :
    decode 0b00000111001101101100101111110001#32 = .ok (.slli 0x13#5 0xD#5 0x12#5 true)
      ∧ decode 0b00000111001101101100101111110101#32 = .ok (.srli 0x13#5 0xD#5 0x12#5 true)
      ∧ decode 0b00000111001101101100101111110111#32 = .ok (.srai 0x13#5 0xD#5 0x12#5 true)
      ∧ decode 0b00000111001101101100101111111001#32 = .ok (.rori 0x13#5 0xD#5 0x12#5 true)
      ∧ decode 0b00000111001101101100101111111011#32 = .ok (.roric 0x13#5 0xD#5 0x12#5 true)
      ∧ decode 0b00000111001101101100101111111101#32 = .ok (.roli 0x13#5 0xD#5 0x12#5 true)
      ∧ decode 0b00000111001101101100101111111111#32 = .ok (.rolic 0x13#5 0xD#5 0x12#5 true) := by decide

theorem test_decode_i_form :
    decode 0b00001111001100010100110000011011#32 = .ok (.addi 0x13#5 0xA60D#16 true)
      ∧ decode 0b00101111001100010100110000011011#32 = .ok (.addis 0x13#5 0xA60D#16 true)
      ∧ decode 0b00001111001101010100110000011011#32 = .ok (.cmpi 0x13#5 0xA60D#16)
      ∧ decode 0b00101111001101010100110000011011#32 = .ok (.cmpis 0x13#5 0xA60D#16)
      ∧ decode 0b00001111001110010100110000011011#32 = .ok (.andi 0x13#5 0xA60D#16 true)
      ∧ decode 0b00101111001110010100110000011011#32 = .ok (.andis 0x13#5 0xA60D#16 true)
      ∧ decode 0b00001111001110110100110000011011#32 = .ok (.ori 0x13#5 0xA60D#16 true)
      ∧ decode 0b00101111001110110100110000011011#32 = .ok (.oris 0x13#5 0xA60D#16 true)
      ∧ decode 0b00001111001111010100110000011011#32 = .ok (.ldi 0x13#5 0xA60D#16)
      ∧ decode 0b00101111001111010100110000011011#32 = .ok (.ldis 0x13#5 0xA60D#16) := by decide

theorem test_decode_j_and_b_form :
    decode 0b00010111010011000001101001011010#32 = .ok (.j 0xA60D2D#24)
      ∧ decode 0b00010111010011000001101001011011#32 = .ok (.jl 0xA60D2D#24)
      ∧ decode 0b00100101101011000111001001011010#32 = .ok (.bCond .lt 0x2D632D#22)
      ∧ decode 0b00100101101011000111001001011011#32 = .ok (.bCondL .lt 0x2D632D#22) := by decide

theorem test_decode_rix_offset :
    decode 0b00011111001101101101101001101000#32 = .ok (.lwRix 0x13#5 0xD#5 0xB4D#12)
      ∧ decode 0b00011111001101101101101001101001#32 = .ok (.lhRix 0x13#5 0xD#5 0xB4D#12)
      ∧ decode 0b00011111001101101101101001101010#32 = .ok (.lhuRix 0x13#5 0xD#5 0xB4D#12)
      ∧ decode 0b00011111001101101101101001101011#32 = .ok (.lbRix 0x13#5 0xD#5 0xB4D#12)
      ∧ decode 0b00011111001101101101101001101100#32 = .ok (.swRix 0x13#5 0xD#5 0xB4D#12)
      ∧ decode 0b00011111001101101101101001101101#32 = .ok (.shRix 0x13#5 0xD#5 0xB4D#12)
      ∧ decode 0b00011111001101101101101001101110#32 = .ok (.lbuRix 0x13#5 0xD#5 0xB4D#12)
      ∧ decode 0b00011111001101101101101001101111#32 = .ok (.sbRix 0x13#5 0xD#5 0xB4D#12) := by decide

theorem test_decode_rix_post :
    decode 0b00111111001101101101101001101000#32 = .ok (.lwPi 0x13#5 0xD#5 0xB4D#12)
      ∧ decode 0b00111111001101101101101001101001#32 = .ok (.lhPi 0x13#5 0xD#5 0xB4D#12)
      ∧ decode 0b00111111001101101101101001101010#32 = .ok (.lhuPi 0x13#5 0xD#5 0xB4D#12)
      ∧ decode 0b00111111001101101101101001101011#32 = .ok (.lbPi 0x13#5 0xD#5 0xB4D#12)
      ∧ decode 0b00111111001101101101101001101100#32 = .ok (.swPi 0x13#5 0xD#5 0xB4D#12)
      ∧ decode 0b00111111001101101101101001101101#32 = .ok (.shPi 0x13#5 0xD#5 0xB4D#12)
      ∧ decode 0b00111111001101101101101001101110#32 = .ok (.lbuPi 0x13#5 0xD#5 0xB4D#12)
      ∧ decode 0b00111111001101101101101001101111#32 = .ok (.sbPi 0x13#5 0xD#5 0xB4D#12) := by decide

theorem test_decode_memory_form :
    decode 0b10000111001101101101101001100101#32 = .ok (.lw 0x13#5 0xD#5 0x5A65#15)
      ∧ decode 0b10001111001101101101101001100101#32 = .ok (.lh 0x13#5 0xD#5 0x5A65#15)
      ∧ decode 0b10010111001101101101101001100101#32 = .ok (.lhu 0x13#5 0xD#5 0x5A65#15)
      ∧ decode 0b10011111001101101101101001100101#32 = .ok (.lb 0x13#5 0xD#5 0x5A65#15)
      ∧ decode 0b10100111001101101101101001100101#32 = .ok (.sw 0x13#5 0xD#5 0x5A65#15)
      ∧ decode 0b10101111001101101101101001100101#32 = .ok (.sh 0x13#5 0xD#5 0x5A65#15)
      ∧ decode 0b10110111001101101101101001100101#32 = .ok (.lbu 0x13#5 0xD#5 0x5A65#15)
      ∧ decode 0b10111111001101101101101001100101#32 = .ok (.sb 0x13#5 0xD#5 0x5A65#15) := by decide

theorem test_decode_compressed_moves :
    decodeCompressed 0b0100111111110000#16 = .ok .nopC
      ∧ decodeCompressed 0b0100110101100001#16 = .ok (.mvC 0xD#5 6#5)
      ∧ decodeCompressed 0b0100111101100010#16 = .ok (.brC 6#5)
      ∧ decodeCompressed 0b0100111101100011#16 = .ok (.brlC 6#5)
      ∧ decodeCompressed 0b0100111111110100#16 = .ok .breakC := by decide

theorem test_decode_compressed_immediates :
    decodeCompressed 0b0110110100010010#16 = .ok (.addiC 0xD#5 0x12#5)
      ∧ decodeCompressed 0b0110110100110010#16 = .ok (.cmpiC 0xD#5 0x12#5)
      ∧ decodeCompressed 0b0110110101010010#16 = .ok (.andiC 0xD#5 0x12#5)
      ∧ decodeCompressed 0b0110110101110010#16 = .ok (.oriC 0xD#5 0x12#5)
      ∧ decodeCompressed 0b0110110110010010#16 = .ok (.ldiC 0xD#5 0x12#5) := by decide

theorem test_decode_compressed_memory :
    decodeCompressed 0b0111110101100000#16 = .ok (.lwC 0xD#5 6#5)
      ∧ decodeCompressed 0b0111110101100001#16 = .ok (.lhC 0xD#5 6#5)
      ∧ decodeCompressed 0b0111110101100010#16 = .ok (.lhuC 0xD#5 6#5)
      ∧ decodeCompressed 0b0111110101100011#16 = .ok (.lbC 0xD#5 6#5)
      ∧ decodeCompressed 0b0111110101100100#16 = .ok (.swC 0xD#5 6#5)
      ∧ decodeCompressed 0b0111110101100101#16 = .ok (.shC 0xD#5 6#5)
      ∧ decodeCompressed 0b0111110101100110#16 = .ok (.lbuC 0xD#5 6#5)
      ∧ decodeCompressed 0b0111110101100111#16 = .ok (.sbC 0xD#5 6#5)
      ∧ decodeCompressed 0b0111110101101000#16 = .ok (.popC 0xD#5 6#5)
      ∧ decodeCompressed 0b0111110101101001#16 = .ok (.pushC 0xD#5 6#5) := by decide

theorem test_decode_compressed_rest :
    decodeCompressed 0b1100100110110010#16 = .ok (.bCondC .lt 0xB2#8)
      ∧ decodeCompressed 0b1101110100010010#16 = .ok (.slliC 0xD#5 0x12#5)
      ∧ decodeCompressed 0b1101110100110010#16 = .ok (.srliC 0xD#5 0x12#5)
      ∧ decodeCompressed 0b1101110101010010#16 = .ok (.sraiC 0xD#5 0x12#5)
      ∧ decodeCompressed 0b1101110101110010#16 = .ok (.roriC 0xD#5 0x12#5)
      ∧ decodeCompressed 0b1101110110010010#16 = .ok (.roliC 0xD#5 0x12#5)
      ∧ decodeCompressed 0b1110110101100000#16 = .ok (.extsbC 0xD#5 6#5)
      ∧ decodeCompressed 0b1110110101100001#16 = .ok (.extshC 0xD#5 6#5)
      ∧ decodeCompressed 0b1110110101100010#16 = .ok (.extzbC 0xD#5 6#5)
      ∧ decodeCompressed 0b1110110101100011#16 = .ok (.extzhC 0xD#5 6#5)
      ∧ decodeCompressed 0b1111110101011001#16 = .ok (.lwpC 0xD#5 0x59#7)
      ∧ decodeCompressed 0b1111110111011001#16 = .ok (.swpC 0xD#5 0x59#7) := by decide

/-- A compressed halfword is decoded when bit 14 of the halfword after it is 1 (R104). -/
theorem test_decode_needs_bit14 :
    decode 0x40004451#32 = .ok (.mvC 4#5 5#5) ∧ decode 0x083C4451#32 ≠ .ok (.mvC 4#5 5#5) := by decide

/-- The reserved encodings named in 95_test_vectors.md sections 2.1, 2.2, 2.5 and 2.6 are rejected by name. -/
theorem test_decode_reserved :
    decode 0x30000000#32 = .error .primaryOpcode ∧ decode 0x0000000A#32 = .error (.spFunc6 5#6)
      ∧ decode 0x00400048#32 = .error .ceSelector ∧ decode 0x08422468#32 = .error (.iFunc3 1#3)
      ∧ decode 0x40005000#32 = .error .compressedTable5 ∧ decode 0x40004005#32 = .error (.compressedCode 4#4 5#4)
      ∧ decode 0x4000741A#32 = .error (.compressedCode 7#4 10#4) ∧ decode 0x40000000#32 = .error (.compressedNibble 0#4)
      := by decide

/-- The opcode table's numbering: a 32-bit row, and a 16-bit row with nothing after it. -/
theorem test_table_words :
    decodeTableWord 32 0x00000012 = some (.addc 0#5 0#5 0#5 false) ∧ decodeTableWord 16 0x4001 = some (.mvC 0#5 0#5)
      ∧ decodeTableWord 32 0x30000000 = none := by decide

/-! ## One step of every instruction: the worked example of its rule, at pc = 0xA0001000 in DRAM -/

/-- The flags in the order N, Z, C, V, T. -/
def fl (n z c v t : Bool) : Flags := ⟨n, z, c, v, t⟩

/-- The examples' start: pc = 0xA0001000, `data` in DRAM from 0xA0000010 up, registers and flags as given. -/
def start (data : List Byte) (regs : List (Reg × Word)) (f : Flags) : State :=
  regs.foldl (fun s p => s.setReg p.1 p.2)
    { State.reset with
      pc := 0xA0001000#32
      flags := f
      mem := Memory.writeBytes [] 0xA0000010 data }

/-- The eight DRAM bytes of the examples of 44_rix_memory_form.md and 45_compressed.md. -/
def data : List Byte := [0x0D, 0xF0, 0x81, 0x80, 0x44, 0x33, 0x22, 0x11]

/-- One step that runs the instruction word `w`. -/
def after (bits w : Nat) (s : State) : State :=
  match step (s.withFetchWord bits w) with
  | .next t => t
  | _ => s

theorem test_syscall :
    let t := after 32 0x2 ((start [] [] (fl false false false false false)).setCr 3#5 0xA0000000#32)
    t.getCr 1#5 = 0#32 ∧ t.getCr 2#5 = 0x40000#32 ∧ t.getCr 5#5 = 0xA0001000#32 ∧ t.pc = 0xA0000004#32 := by decide
theorem test_trap :
    let t := after 32 0x4 ((start [] [] (fl false false true false false)).setCr 3#5 0xA0000000#32)
    t.getCr 1#5 = 0x20000000#32 ∧ t.getCr 2#5 = 0x80000#32 ∧ t.getCr 5#5 = 0xA0001000#32 ∧ t.pc = 0xA0000008#32 := by decide
theorem test_sdbbp :
    let t := after 32 0x6 ((start [] [] (fl false false false false false)).setCr 3#5 0xA0000000#32)
    t.getCr 2#5 = 0xC0000#32 ∧ t.getCr 5#5 = 0xA0001000#32 ∧ t.pc = 0xA000000C#32 := by decide
theorem test_br :
    let t := after 32 0x20008 (start [] [(4#5, 0xA0002000#32)] (fl false false false false false))
    t.pc = 0xA0002000#32 := by decide
theorem test_brl :
    let t := after 32 0x20009 (start [] [(4#5, 0xA0002000#32)] (fl false false false false false))
    t.getReg 3#5 = 0xA0001004#32 ∧ t.pc = 0xA0002000#32 := by decide
theorem test_rte :
    let t := after 32 0xC ((((start [] [] (fl false false false false false)).setCr 1#5 0xA0000001#32)).setCr 5#5 0xA0000040#32)
    t.flags = fl true false true false true ∧ t.pc = 0xA0000040#32 := by decide
theorem test_add :
    let t := after 32 0x308811 (start [] [(1#5, 0x7FFFFFFF#32), (2#5, 1#32)] (fl false false false false false))
    t.getReg 3#5 = 0x80000000#32 ∧ t.flags = fl true false false true false ∧ t.pc = 0xA0001004#32 := by decide
theorem test_addc :
    let t := after 32 0x308813 (start [] [(1#5, 0xFFFFFFFF#32)] (fl false false true false false))
    t.getReg 3#5 = 0#32 ∧ t.flags = fl false true true false false := by decide
theorem test_sub :
    let t := after 32 0x308815 (start [] [(1#5, 5#32), (2#5, 7#32)] (fl false false false false false))
    t.getReg 3#5 = 0xFFFFFFFE#32 ∧ t.flags = fl true false false false false := by decide
theorem test_subc :
    let t := after 32 0x308817 (start [] [(1#5, 5#32), (2#5, 5#32)] (fl false false false false false))
    t.getReg 3#5 = 0xFFFFFFFF#32 ∧ t.flags = fl true false false false false := by decide
theorem test_cmp :
    let t := after 32 0x8818 (start [] [(1#5, 7#32), (2#5, 7#32)] (fl false false false false false))
    t.flags = fl false true true false false := by decide
theorem test_neg :
    let t := after 32 0x30801F (start [] [(1#5, 1#32)] (fl false false false false false))
    t.getReg 3#5 = 0xFFFFFFFF#32 ∧ t.flags = fl true false false false false := by decide
theorem test_and :
    let t := after 32 0x308821 (start [] [(1#5, 0xF0F0F0F0#32), (2#5, 0xF0F0F0F#32)] (fl false false false false false))
    t.getReg 3#5 = 0#32 ∧ t.flags = fl false true false false false := by decide
theorem test_or :
    let t := after 32 0x308823 (start [] [(1#5, 0xF0000000#32), (2#5, 0xF#32)] (fl false false false false false))
    t.getReg 3#5 = 0xF000000F#32 ∧ t.flags = fl true false false false false := by decide
theorem test_not :
    let t := after 32 0x308025 (start [] [] (fl false false false false false))
    t.getReg 3#5 = 0xFFFFFFFF#32 ∧ t.flags = fl true false false false false := by decide
theorem test_xor :
    let t := after 32 0x308827 (start [] [(1#5, 0x1234#32), (2#5, 0x1234#32)] (fl false false false false false))
    t.getReg 3#5 = 0#32 ∧ t.flags = fl false true false false false := by decide
theorem test_bitclr :
    let t := after 32 0x30FC29 (start [] [(1#5, 0x80000001#32)] (fl false false false false false))
    t.getReg 3#5 = 1#32 ∧ t.flags = fl false false false false false := by decide
theorem test_bitset :
    let t := after 32 0x30FC2B (start [] [(1#5, 1#32)] (fl false false false false false))
    t.getReg 3#5 = 0x80000001#32 ∧ t.flags = fl true false false false false := by decide
theorem test_bittst :
    let t := after 32 0x902C (start [] [(1#5, 0x10#32)] (fl false false false false false))
    t.flags = fl false false false false true := by decide
theorem test_bittgl :
    let t := after 32 0x30802F (start [] [(1#5, 1#32)] (fl false false false false false))
    t.getReg 3#5 = 0#32 ∧ t.flags = fl false true false false false := by decide
theorem test_sll :
    let t := after 32 0x308831 (start [] [(1#5, 0x80000001#32), (2#5, 1#32)] (fl false false false false false))
    t.getReg 3#5 = 2#32 ∧ t.flags = fl false false true false false := by decide
theorem test_srl :
    let t := after 32 0x308835 (start [] [(1#5, 0x80000001#32), (2#5, 1#32)] (fl false false false false false))
    t.getReg 3#5 = 0x40000000#32 ∧ t.flags = fl false false true false false := by decide
theorem test_sra :
    let t := after 32 0x308837 (start [] [(1#5, 0x80000000#32), (2#5, 4#32)] (fl false false false false false))
    t.getReg 3#5 = 0xF8000000#32 ∧ t.flags = fl true false false false false := by decide
theorem test_ror :
    let t := after 32 0x308839 (start [] [(1#5, 1#32), (2#5, 1#32)] (fl false false false false false))
    t.getReg 3#5 = 0x80000000#32 ∧ t.flags = fl true false true false false := by decide
theorem test_rorc :
    let t := after 32 0x30883B (start [] [(1#5, 2#32), (2#5, 1#32)] (fl false false true false false))
    t.getReg 3#5 = 0x80000001#32 ∧ t.flags = fl true false false false false := by decide
theorem test_rol :
    let t := after 32 0x30883D (start [] [(1#5, 0x80000000#32), (2#5, 1#32)] (fl false false false false false))
    t.getReg 3#5 = 1#32 ∧ t.flags = fl false false true false false := by decide
theorem test_rolc :
    let t := after 32 0x30883F (start [] [(1#5, 0x80000000#32), (2#5, 1#32)] (fl false false false false false))
    t.getReg 3#5 = 0#32 ∧ t.flags = fl false true true false false := by decide
theorem test_mul :
    let t := after 32 0x8840 (start [] [(1#5, 0xFFFFFFFE#32), (2#5, 3#32)] (fl false false false false false))
    t.cel = 0xFFFFFFFA#32 ∧ t.ceh = 0xFFFFFFFF#32 := by decide
theorem test_mulu :
    let t := after 32 0x8842 (start [] [(1#5, 0xFFFFFFFF#32), (2#5, 0xFFFFFFFF#32)] (fl false false false false false))
    t.cel = 1#32 ∧ t.ceh = 0xFFFFFFFE#32 := by decide
theorem test_div :
    let t := after 32 0x8844 (start [] [(1#5, 0xFFFFFFF9#32), (2#5, 2#32)] (fl false false false false false))
    t.cel = 0xFFFFFFFD#32 ∧ t.ceh = 0xFFFFFFFF#32 := by decide
theorem test_divu :
    let t := after 32 0x8846 (start [] [(1#5, 7#32), (2#5, 2#32)] (fl false false false false false))
    t.cel = 3#32 ∧ t.ceh = 1#32 := by decide
theorem test_mfcel :
    let t := after 32 0x400448 ((start [] [] (fl false false false false false)).setCe 0x11#32 0x22#32)
    t.getReg 4#5 = 0x11#32 := by decide
theorem test_mfcehl :
    let t := after 32 0x428C48 ((start [] [] (fl false false false false false)).setCe 0x11#32 0x22#32)
    t.getReg 4#5 = 0x22#32 ∧ t.getReg 5#5 = 0x11#32 := by decide
theorem test_mtcel :
    let t := after 32 0x40044A (start [] [(4#5, 0x33#32)] (fl false false false false false))
    t.cel = 0x33#32 := by decide
theorem test_mtcehl :
    let t := after 32 0x428C4A (start [] [(4#5, 0x44#32), (5#5, 0x55#32)] (fl false false false false false))
    t.ceh = 0x44#32 ∧ t.cel = 0x55#32 := by decide
theorem test_mfcr :
    let t := after 32 0x400C4C ((start [] [] (fl false false false false false)).setCr 3#5 0xA0000000#32)
    t.getReg 4#5 = 0xA0000000#32 := by decide
theorem test_mtcr :
    let t := after 32 0x400C4E (start [] [(4#5, 0xA0000100#32)] (fl false false false false false))
    t.getCr 3#5 = 0xA0000100#32 := by decide
theorem test_mfsr :
    let t := after 32 0x400050 (start [] [] (fl true true true true true))
    t.getReg 4#5 = 0xF0000001#32 := by decide
theorem test_mtsr :
    let t := after 32 0x400052 (start [] [(4#5, 0xFFFFFFFF#32)] (fl false false false false false))
    t.flags = fl true true true true true := by decide
theorem test_tCond :
    let t := after 32 0x1054 (start [] [] (fl false true false false false))
    t.flags = fl false true false false true := by decide
theorem test_mvCond :
    let t := after 32 0x309056 (start [] [(1#5, 9#32)] (fl false true false false false))
    t.getReg 3#5 = 9#32 := by decide
theorem test_extsb :
    let t := after 32 0x308059 (start [] [(1#5, 0x12345680#32)] (fl false false false false false))
    t.getReg 3#5 = 0xFFFFFF80#32 ∧ t.flags = fl true false false false false := by decide
theorem test_extsh :
    let t := after 32 0x30805B (start [] [(1#5, 0x18000#32)] (fl false false false false false))
    t.getReg 3#5 = 0xFFFF8000#32 ∧ t.flags = fl true false false false false := by decide
theorem test_extzb :
    let t := after 32 0x30805D (start [] [(1#5, 0x12345680#32)] (fl false false false false false))
    t.getReg 3#5 = 0x80#32 ∧ t.flags = fl false false false false false := by decide
theorem test_extzh :
    let t := after 32 0x30805F (start [] [(1#5, 0xFFFF8000#32)] (fl false false false false false))
    t.getReg 3#5 = 0x8000#32 ∧ t.flags = fl false false false false false := by decide
theorem test_lcb :
    let t := after 32 0x308060 (start [0x0D, 0xF0, 0xFE, 0xCA] [(1#5, 0xA0000010#32)] (fl false false false false false))
    t.getReg 3#5 = 0xD#32 := by decide
theorem test_lcw :
    let t := after 32 0x308062 (start [0x0D, 0xF0, 0xFE, 0xCA] [(1#5, 0xA0000010#32)] (fl false false false false false))
    t.getReg 3#5 = 0xCAFEF00D#32 := by decide
theorem test_scb :
    let t := after 32 0x308068 (start [0x0D, 0xF0, 0xFE, 0xCA] [(1#5, 0xA0000020#32), (3#5, 0x12345678#32)] (fl false false false false false))
    t.peekByte 0xA0000020#32 = some 0x78#8 := by decide
theorem test_scw :
    let t := after 32 0x30806A (start [0x0D, 0xF0, 0xFE, 0xCA] [(1#5, 0xA0000020#32), (3#5, 0x12345678#32)] (fl false false false false false))
    t.peekByte 0xA0000020#32 = some 0x78#8 ∧ t.peekByte 0xA0000023#32 = some 0x12#8 := by decide
theorem test_slli :
    let t := after 32 0x309071 (start [] [(1#5, 0x10000001#32)] (fl false false false false false))
    t.getReg 3#5 = 0x10#32 ∧ t.flags = fl false false true false false := by decide
theorem test_srli :
    let t := after 32 0x309075 (start [] [(1#5, 0x10000018#32)] (fl false false false false false))
    t.getReg 3#5 = 0x1000001#32 ∧ t.flags = fl false false true false false := by decide
theorem test_srai :
    let t := after 32 0x309077 (start [] [(1#5, 0x80000018#32)] (fl false false false false false))
    t.getReg 3#5 = 0xF8000001#32 ∧ t.flags = fl true false true false false := by decide
theorem test_rori :
    let t := after 32 0x309079 (start [] [(1#5, 0x12345678#32)] (fl false false false false false))
    t.getReg 3#5 = 0x81234567#32 ∧ t.flags = fl true false true false false := by decide
theorem test_roric :
    let t := after 32 0x30847B (start [] [(1#5, 3#32)] (fl false false false false false))
    t.getReg 3#5 = 1#32 ∧ t.flags = fl false false true false false := by decide
theorem test_roli :
    let t := after 32 0x30907D (start [] [(1#5, 0x12345678#32)] (fl false false false false false))
    t.getReg 3#5 = 0x23456781#32 ∧ t.flags = fl false false true false false := by decide
theorem test_rolic :
    let t := after 32 0x30847F (start [] [(1#5, 0x80000000#32)] (fl false false true false false))
    t.getReg 3#5 = 1#32 ∧ t.flags = fl false false true false false := by decide
theorem test_addi :
    let t := after 32 0x841FFFF (start [] [(4#5, 1#32)] (fl false false false false false))
    t.getReg 4#5 = 0#32 ∧ t.flags = fl false true true false false := by decide
theorem test_addis :
    let t := after 32 0x28410001 (start [] [(4#5, 0x80000000#32)] (fl false false false false false))
    t.getReg 4#5 = 0#32 ∧ t.flags = fl false true true true false := by decide
theorem test_cmpi :
    let t := after 32 0x845FFFE (start [] [(4#5, 0xFFFFFFFF#32)] (fl false false false false false))
    t.flags = fl false true true false false := by decide
theorem test_cmpis :
    let t := after 32 0x28442468 (start [] [(4#5, 0x12340000#32)] (fl false false false false false))
    t.flags = fl false true true false false := by decide
theorem test_andi :
    let t := after 32 0x849FE01 (start [] [(4#5, 0x1234ABCD#32)] (fl false false false false false))
    t.getReg 4#5 = 0xAB00#32 ∧ t.flags = fl false false false false false := by decide
theorem test_andis :
    let t := after 32 0x2849FFFF (start [] [(4#5, 0x1234ABCD#32)] (fl false false false false false))
    t.getReg 4#5 = 0x12340000#32 ∧ t.flags = fl false false false false false := by decide
theorem test_ori :
    let t := after 32 0x84B0001 (start [] [(4#5, 0x12340000#32)] (fl false false false false false))
    t.getReg 4#5 = 0x12348000#32 ∧ t.flags = fl false false false false false := by decide
theorem test_oris :
    let t := after 32 0x284B0000 (start [] [(4#5, 0x1234#32)] (fl false false false false false))
    t.getReg 4#5 = 0x80001234#32 := by decide
theorem test_ldi :
    let t := after 32 0x84DFFFD (start [] [(4#5, 7#32)] (fl false false false false false))
    t.getReg 4#5 = 0xFFFFFFFE#32 := by decide
theorem test_ldis :
    let t := after 32 0x284D4000 (start [] [(4#5, 7#32)] (fl false false false false false))
    t.getReg 4#5 = 0xA0000000#32 := by decide
theorem test_j :
    let t := after 32 0x10000100 (start [] [] (fl false false false false false))
    t.pc = 0xA0001100#32 := by decide
theorem test_jl :
    let t := after 32 0x10000101 (start [] [] (fl false false false false false))
    t.getReg 3#5 = 0xA0001004#32 ∧ t.pc = 0xA0001100#32 := by decide
theorem test_bCond :
    let t := after 32 0x20000808 (start [] [] (fl false false false false false))
    t.flags = fl false false false false false ∧ t.pc = 0xA0001004#32 := by decide
theorem test_bCondL :
    let t := after 32 0x27FFE9F1 (start [] [] (fl false true false false false))
    t.getReg 3#5 = 0xA0001004#32 ∧ t.pc = 0xA0000FF0#32 := by decide
theorem test_lwRix :
    let t := after 32 0x18408020 (start data [(1#5, 0xA000000E#32), (4#5, 0xDEADBEEF#32)] (fl false false false false false))
    t.getReg 4#5 = 0x33448081#32 := by decide
theorem test_lhRix :
    let t := after 32 0x18408021 (start data [(1#5, 0xA000000E#32), (4#5, 0xDEADBEEF#32)] (fl false false false false false))
    t.getReg 4#5 = 0xFFFF8081#32 := by decide
theorem test_lhuRix :
    let t := after 32 0x18408022 (start data [(1#5, 0xA000000E#32), (4#5, 0xDEADBEEF#32)] (fl false false false false false))
    t.getReg 4#5 = 0x8081#32 := by decide
theorem test_lbRix :
    let t := after 32 0x18408023 (start data [(1#5, 0xA000000E#32), (4#5, 0xDEADBEEF#32)] (fl false false false false false))
    t.getReg 4#5 = 0xFFFFFF81#32 := by decide
theorem test_swRix :
    let t := after 32 0x18408024 (start data [(1#5, 0xA000000E#32), (4#5, 0xDEADBEEF#32)] (fl false false false false false))
    t.peekByte 0xA0000012#32 = some 0xEF#8 ∧ t.peekByte 0xA0000015#32 = some 0xDE#8 := by decide
theorem test_shRix :
    let t := after 32 0x18408025 (start data [(1#5, 0xA000000E#32), (4#5, 0xDEADBEEF#32)] (fl false false false false false))
    t.peekByte 0xA0000012#32 = some 0xEF#8 ∧ t.peekByte 0xA0000013#32 = some 0xBE#8 := by decide
theorem test_lbuRix :
    let t := after 32 0x18408026 (start data [(1#5, 0xA000000E#32), (4#5, 0xDEADBEEF#32)] (fl false false false false false))
    t.getReg 4#5 = 0x81#32 := by decide
theorem test_sbRix :
    let t := after 32 0x18408027 (start data [(1#5, 0xA000000E#32), (4#5, 0xDEADBEEF#32)] (fl false false false false false))
    t.peekByte 0xA0000012#32 = some 0xEF#8 := by decide
theorem test_lwPi :
    let t := after 32 0x38408020 (start data [(1#5, 0xA0000010#32), (4#5, 0xDEADBEEF#32)] (fl false false false false false))
    t.getReg 4#5 = 0x8081F00D#32 ∧ t.getReg 1#5 = 0xA0000014#32 := by decide
theorem test_lhPi :
    let t := after 32 0x38408021 (start data [(1#5, 0xA0000010#32), (4#5, 0xDEADBEEF#32)] (fl false false false false false))
    t.getReg 4#5 = 0xFFFFF00D#32 ∧ t.getReg 1#5 = 0xA0000014#32 := by decide
theorem test_lhuPi :
    let t := after 32 0x38408022 (start data [(1#5, 0xA0000010#32), (4#5, 0xDEADBEEF#32)] (fl false false false false false))
    t.getReg 4#5 = 0xF00D#32 ∧ t.getReg 1#5 = 0xA0000014#32 := by decide
theorem test_lbPi :
    let t := after 32 0x38408023 (start data [(1#5, 0xA0000010#32), (4#5, 0xDEADBEEF#32)] (fl false false false false false))
    t.getReg 4#5 = 0xD#32 ∧ t.getReg 1#5 = 0xA0000014#32 := by decide
theorem test_swPi :
    let t := after 32 0x38408024 (start data [(1#5, 0xA0000010#32), (4#5, 0xDEADBEEF#32)] (fl false false false false false))
    t.getReg 1#5 = 0xA0000014#32 ∧ t.peekByte 0xA0000010#32 = some 0xEF#8 ∧ t.peekByte 0xA0000013#32 = some 0xDE#8 := by decide
theorem test_shPi :
    let t := after 32 0x38408025 (start data [(1#5, 0xA0000010#32), (4#5, 0xDEADBEEF#32)] (fl false false false false false))
    t.getReg 1#5 = 0xA0000014#32 ∧ t.peekByte 0xA0000010#32 = some 0xEF#8 ∧ t.peekByte 0xA0000011#32 = some 0xBE#8 := by decide
theorem test_lbuPi :
    let t := after 32 0x38408026 (start data [(1#5, 0xA0000010#32), (4#5, 0xDEADBEEF#32)] (fl false false false false false))
    t.getReg 4#5 = 0xD#32 ∧ t.getReg 1#5 = 0xA0000014#32 := by decide
theorem test_sbPi :
    let t := after 32 0x38408027 (start data [(1#5, 0xA0000010#32), (4#5, 0xDEADBEEF#32)] (fl false false false false false))
    t.getReg 1#5 = 0xA0000014#32 ∧ t.peekByte 0xA0000010#32 = some 0xEF#8 := by decide
theorem test_lw :
    let t := after 32 0x8040FFF0 (start data [(1#5, 0xA0000020#32), (4#5, 0xDEADBEEF#32)] (fl false false false false false))
    t.getReg 4#5 = 0x8081F00D#32 := by decide
theorem test_lh :
    let t := after 32 0x8840FFF0 (start data [(1#5, 0xA0000020#32), (4#5, 0xDEADBEEF#32)] (fl false false false false false))
    t.getReg 4#5 = 0xFFFFF00D#32 := by decide
theorem test_lhu :
    let t := after 32 0x9040FFF0 (start data [(1#5, 0xA0000020#32), (4#5, 0xDEADBEEF#32)] (fl false false false false false))
    t.getReg 4#5 = 0xF00D#32 := by decide
theorem test_lb :
    let t := after 32 0x9840FFF0 (start data [(1#5, 0xA0000020#32), (4#5, 0xDEADBEEF#32)] (fl false false false false false))
    t.getReg 4#5 = 0xD#32 := by decide
theorem test_sw :
    let t := after 32 0xA040FFF0 (start data [(1#5, 0xA0000020#32), (4#5, 0xDEADBEEF#32)] (fl false false false false false))
    t.peekByte 0xA0000010#32 = some 0xEF#8 ∧ t.peekByte 0xA0000013#32 = some 0xDE#8 := by decide
theorem test_sh :
    let t := after 32 0xA840FFF0 (start data [(1#5, 0xA0000020#32), (4#5, 0xDEADBEEF#32)] (fl false false false false false))
    t.peekByte 0xA0000010#32 = some 0xEF#8 ∧ t.peekByte 0xA0000011#32 = some 0xBE#8 := by decide
theorem test_lbu :
    let t := after 32 0xB040FFF0 (start data [(1#5, 0xA0000020#32), (4#5, 0xDEADBEEF#32)] (fl false false false false false))
    t.getReg 4#5 = 0xD#32 := by decide
theorem test_sb :
    let t := after 32 0xB840FFF0 (start data [(1#5, 0xA0000020#32), (4#5, 0xDEADBEEF#32)] (fl false false false false false))
    t.peekByte 0xA0000010#32 = some 0xEF#8 := by decide
theorem test_nopC :
    let t := after 16 0x4000 (start [] [] (fl false false false false false))
    t.pc = 0xA0001002#32 := by decide
theorem test_mvC :
    let t := after 16 0x4451 (start [] [(5#5, 0x1234#32)] (fl false false false false false))
    t.getReg 4#5 = 0x1234#32 ∧ t.pc = 0xA0001002#32 := by decide
theorem test_brC :
    let t := after 16 0x4052 (start [] [(5#5, 0xA0002000#32)] (fl false false false false false))
    t.pc = 0xA0002000#32 := by decide
theorem test_brlC :
    let t := after 16 0x4053 (start [] [(5#5, 0xA0002000#32)] (fl false false false false false))
    t.getReg 3#5 = 0xA0001002#32 ∧ t.pc = 0xA0002000#32 := by decide
theorem test_breakC :
    let t := after 16 0x4004 ((start [] [] (fl false false false false false)).setCr 3#5 0xA0000000#32)
    t.getCr 2#5 = 0xC0000#32 ∧ t.getCr 5#5 = 0xA0001000#32 ∧ t.pc = 0xA000000C#32 := by decide
theorem test_addiC :
    let t := after 16 0x641F (start [] [(4#5, 1#32)] (fl false false false false false))
    t.getReg 4#5 = 0#32 ∧ t.flags = fl false true true false false := by decide
theorem test_cmpiC :
    let t := after 16 0x6430 (start [] [(4#5, 0xFFFFFFF0#32)] (fl false false false false false))
    t.flags = fl false true true false false := by decide
theorem test_andiC :
    let t := after 16 0x645F (start [] [(4#5, 0xFFFFFFF0#32)] (fl false false false false false))
    t.getReg 4#5 = 0x10#32 ∧ t.flags = fl false false false false false := by decide
theorem test_oriC :
    let t := after 16 0x6470 (start [] [(4#5, 0x80000000#32)] (fl false false false false false))
    t.getReg 4#5 = 0x80000010#32 ∧ t.flags = fl true false false false false := by decide
theorem test_ldiC :
    let t := after 16 0x6490 (start [] [(4#5, 1#32)] (fl false false false false false))
    t.getReg 4#5 = 0xFFFFFFF0#32 := by decide
theorem test_lwC :
    let t := after 16 0x7410 (start data [(1#5, 0xA0000010#32)] (fl false false false false false))
    t.getReg 4#5 = 0x8081F00D#32 := by decide
theorem test_lhC :
    let t := after 16 0x7411 (start data [(1#5, 0xA0000012#32)] (fl false false false false false))
    t.getReg 4#5 = 0xFFFF8081#32 := by decide
theorem test_lhuC :
    let t := after 16 0x7412 (start data [(1#5, 0xA0000012#32)] (fl false false false false false))
    t.getReg 4#5 = 0x8081#32 := by decide
theorem test_lbC :
    let t := after 16 0x7413 (start data [(1#5, 0xA0000012#32)] (fl false false false false false))
    t.getReg 4#5 = 0xFFFFFF81#32 := by decide
theorem test_swC :
    let t := after 16 0x7414 (start data [(1#5, 0xA0000010#32), (4#5, 0xDEADBEEF#32)] (fl false false false false false))
    t.peekByte 0xA0000010#32 = some 0xEF#8 ∧ t.peekByte 0xA0000013#32 = some 0xDE#8 := by decide
theorem test_shC :
    let t := after 16 0x7415 (start data [(1#5, 0xA0000010#32), (4#5, 0xDEADBEEF#32)] (fl false false false false false))
    t.peekByte 0xA0000010#32 = some 0xEF#8 ∧ t.peekByte 0xA0000011#32 = some 0xBE#8 := by decide
theorem test_lbuC :
    let t := after 16 0x7416 (start data [(1#5, 0xA0000012#32)] (fl false false false false false))
    t.getReg 4#5 = 0x81#32 := by decide
theorem test_sbC :
    let t := after 16 0x7417 (start data [(1#5, 0xA0000010#32), (4#5, 0xDEADBEEF#32)] (fl false false false false false))
    t.peekByte 0xA0000010#32 = some 0xEF#8 := by decide
theorem test_popC :
    let t := after 16 0x7428 (start data [(2#5, 0xA0000010#32)] (fl false false false false false))
    t.getReg 4#5 = 0x8081F00D#32 ∧ t.getReg 2#5 = 0xA0000014#32 := by decide
theorem test_pushC :
    let t := after 16 0x7429 (start data [(2#5, 0xA0000018#32), (4#5, 0xDEADBEEF#32)] (fl false false false false false))
    t.getReg 2#5 = 0xA0000014#32 ∧ t.peekByte 0xA0000014#32 = some 0xEF#8 ∧ t.peekByte 0xA0000017#32 = some 0xDE#8 := by decide
theorem test_bCondC :
    let t := after 16 0xC404 (start [] [] (fl false true false false false))
    t.pc = 0xA0001008#32 := by decide
theorem test_slliC :
    let t := after 16 0xD404 (start [] [(4#5, 0x10000001#32)] (fl false false false false false))
    t.getReg 4#5 = 0x10#32 ∧ t.flags = fl false false true false false := by decide
theorem test_srliC :
    let t := after 16 0xD424 (start [] [(4#5, 0x10000018#32)] (fl false false false false false))
    t.getReg 4#5 = 0x1000001#32 ∧ t.flags = fl false false true false false := by decide
theorem test_sraiC :
    let t := after 16 0xD444 (start [] [(4#5, 0x80000018#32)] (fl false false false false false))
    t.getReg 4#5 = 0xF8000001#32 ∧ t.flags = fl true false true false false := by decide
theorem test_roriC :
    let t := after 16 0xD464 (start [] [(4#5, 0x12345678#32)] (fl false false false false false))
    t.getReg 4#5 = 0x81234567#32 ∧ t.flags = fl true false true false false := by decide
theorem test_roliC :
    let t := after 16 0xD484 (start [] [(4#5, 0x12345678#32)] (fl false false false false false))
    t.getReg 4#5 = 0x23456781#32 ∧ t.flags = fl false false true false false := by decide
theorem test_extsbC :
    let t := after 16 0xE450 (start [] [(5#5, 0x12345680#32)] (fl false false false false false))
    t.getReg 4#5 = 0xFFFFFF80#32 ∧ t.flags = fl true false false false false := by decide
theorem test_extshC :
    let t := after 16 0xE451 (start [] [(5#5, 0x18000#32)] (fl false false false false false))
    t.getReg 4#5 = 0xFFFF8000#32 ∧ t.flags = fl true false false false false := by decide
theorem test_extzbC :
    let t := after 16 0xE452 (start [] [(5#5, 0x12345680#32)] (fl false false false false false))
    t.getReg 4#5 = 0x80#32 ∧ t.flags = fl false false false false false := by decide
theorem test_extzhC :
    let t := after 16 0xE453 (start [] [(5#5, 0xFFFF8000#32)] (fl false false false false false))
    t.getReg 4#5 = 0x8000#32 ∧ t.flags = fl false false false false false := by decide
theorem test_lwpC :
    let t := after 16 0xF404 (start data [(2#5, 0xA0000000#32)] (fl false false false false false))
    t.getReg 4#5 = 0x8081F00D#32 := by decide
theorem test_swpC :
    let t := after 16 0xF485 (start data [(2#5, 0xA0000000#32), (4#5, 0xDEADBEEF#32)] (fl false false false false false))
    t.peekByte 0xA0000014#32 = some 0xEF#8 ∧ t.peekByte 0xA0000017#32 = some 0xDE#8 := by decide

/-! ## Exceptions, interrupts, faults and the host's controls (95_test_vectors.md section 2.6) -/

/-- The examples' start with nothing in registers or memory. -/
def idle : State := start [] [] (fl false false false false false)

/-- The start with the word `w` at pc. -/
def holding (w : Nat) : State := idle.withFetchWord 32 w

/-- The start with cr3 = 0xA0000000. -/
def vectored : State := idle.setCr 3#5 0xA0000000#32

/-- The state that an outcome answers; `reset` where it answers none. -/
def answer (r : Result) : State :=
  match r with
  | .next t => t
  | _ => State.reset

/-- Two outcomes are next states and equal; a test of whole states. -/
def sameNext (r : Result) (t : State) : Bool :=
  match r with
  | .next u => decide (u = t)
  | _ => false

theorem test_illegal_fetch_sink :
    let s := { vectored with pc := 0x12345678#32 }
    let t := answer (step s)
    t.getCr 5#5 = 0x12345678#32 ∧ t.getCr 2#5 = 0x00FC0000#32 ∧ t.pc = 0xA00003FC#32 ∧ t.faultCount = 0
      ∧ t.instructions = 0#64 ∧ s.stepReturn = .returnsFalse := by decide
theorem test_illegal_fetch_last_bytes :
    let t := answer (step { vectored with pc := 0xA0FFFFFE#32 })
    t.getCr 5#5 = 0xA0FFFFFE#32 ∧ t.getCr 2#5 = 0x00FC0000#32 ∧ t.pc = 0xA00003FC#32 := by decide
theorem test_fetchable_edge :
    idle.fetchable 0xA0FFFFFC#32 = true ∧ idle.fetchable 0xA0FFFFFD#32 = false := by decide
theorem test_livelock :
    let t := answer (step { idle with pc := 0x10#32 })
    let u := answer (step t)
    t.getCr 5#5 = 0x10#32 ∧ t.pc = 0x3FC#32 ∧ u.getCr 5#5 = 0x3FC#32 ∧ u.pc = 0x3FC#32 ∧ u.halted = false := by decide
theorem test_trigger_out_of_range :
    sameNext (hostEvent (.trigger 40) State.reset) { State.reset with intc := ⟨0xFFFFFFFF#32, 0#32, 0#32, true, 1⟩ }
      = true := by decide
theorem test_trigger_while_halted :
    let t := answer (hostEvent (.trigger 7) { vectored with halted := true })
    t.intc.status = 0x80#32 ∧ t.getCr 2#5 = 0x001C0000#32 ∧ t.getCr 5#5 = 0xA0001000#32 ∧ t.pc = 0xA000001C#32
      ∧ t.halted = true ∧ sameNext (step t) t = true := by decide
theorem test_trigger_without_cpu :
    let s := { idle with intc := { idle.intc with cpuConnected := false } }
    sameNext (hostEvent (.trigger 6) s) { s with intc := { s.intc with status := 0x40#32, blocked := 1 } } = true := by
  decide
theorem test_unmask_does_not_deliver :
    let s := start [] [(4#5, 0x10#32), (5#5, 0x08000000#32)] (fl false false false false false)
    let t := answer (hostEvent (.trigger 4) { s with intc := { s.intc with mask := 0#32 } })
    let u := answer (exec (.scw 4#5 5#5) t)
    t.intc.status = 0x10#32 ∧ t.pc = 0xA0001000#32 ∧ u.intc.mask = 0x10#32 ∧ u.intc.status = 0x10#32
      ∧ u.pc = 0xA0001004#32 := by decide
theorem test_nested_entry :
    let t := answer (runEvents [.host (.trigger 4), .host (.trigger 5)] vectored)
    t.getCr 5#5 = 0xA0000010#32 ∧ t.getCr 2#5 = 0x00140000#32 ∧ t.pc = 0xA0000014#32 := by decide
theorem test_reserved_word :
    sameNext (step (holding 0x30000000)) { holding 0x30000000 with faultCount := 1 } = true := by decide
theorem test_breaker_limit :
    let s := { holding 0x30000000 with faultCount := 99 }
    let t := answer (step s)
    let u := answer (step t)
    t.faultCount = 100 ∧ t.halted = false ∧ u.faultCount = 101 ∧ u.halted = true ∧ sameNext (step u) u = true := by
  decide
theorem test_resume :
    let s := { holding 0x30000000 with faultCount := 101, halted := true }
    let t := answer (hostEvent .resumeHalted s)
    t.halted = false ∧ t.faultCount = 0 ∧ (answer (step t)).faultCount = 1 := by decide
theorem test_success_resets_the_breaker :
    let s := { holding 0 with faultCount := 57 }
    (answer (step s)).faultCount = 0 ∧ (answer (step s)).cycles = 1#64 ∧ s.stepReturn = .returnsTrue := by decide
theorem test_not_initialized :
    (match step State.constructed with
      | .fault .notInitialized => true
      | _ => false) = true := by decide
theorem test_breakpoint :
    let s := { idle with breakpoints := [0xA0001000] }
    sameNext (step s) { s with paused := true } = true
      ∧ sameNext (step { s with paused := true }) { s with paused := true } = true := by decide
theorem test_step_past_breakpoint :
    let s := { holding 0x00308811 with breakpoints := [0xA0001000] }
    let t := answer (runEvents [.stepUnchecked] s)
    t.pc = 0xA0001004#32 ∧ t.paused = false ∧ t.breakpoints = [0xA0001000] := by decide
theorem test_breakpoint_unfetchable :
    let t := answer (step { vectored with pc := 0x12345678#32, breakpoints := [0x12345678] })
    t.pc = 0xA00003FC#32 ∧ t.paused = false := by decide
/-- A guest store to FLASH is discarded (R67, D30), and the byte still reads as the host loaded it. -/
theorem test_flash_store_dropped :
    let s := answer (hostEvent (.loadImage .flash 0 [0x5A#8]) idle)
    let t := answer (exec (.scw 4#5 5#5) ((s.setReg 5#5 0x9E000000#32).setReg 4#5 0x11111111#32))
    s.peekByte 0x9E000000#32 = some 0x5A#8 ∧ t.peekByte 0x9E000000#32 = some 0x5A#8 := by decide
/-- An acknowledge clears the STATUS bits it sets, and a byte store clears only its own byte's (R80, R81). -/
theorem test_int_ack :
    let s := { idle with intc := { idle.intc with status := 0x8080#32 } }
    (s.memWrite 0x0800000C#32 .word 0x80#32).intc.status = 0x8000#32
      ∧ (s.memWrite 0x0800000D#32 .byte 0x80#32).intc.status = 0x80#32
      ∧ (s.memWrite 0x08000008#32 .word 0#32).intc.status = 0x8080#32 := by decide
theorem test_nop :
    sameNext (exec .nop idle) { idle with pc := 0xA0001004#32 } = true := by decide
theorem test_mfceh :
    (after 32 0x00400848 { idle with ceh := 0x12345678#32, cel := 0x9#32 }).getReg 4#5 = 0x12345678#32 := by decide
theorem test_mtceh :
    let t := after 32 0x0040084A ({ idle with cel := 0x9#32 }.setReg 4#5 0x12345678#32)
    t.ceh = 0x12345678#32 ∧ t.cel = 0x9#32 := by decide
/-- An INTC reset enables every line and clears STATUS and PRIO; the CPU's connection stays (R373). -/
theorem test_intc_reset :
    let s := { vectored with intc := ⟨0x10#32, 0x80#32, 0x3#32, true, 2⟩ }
    (answer (hostEvent .resetIntc s)).intc = ⟨0xFFFFFFFF#32, 0#32, 0#32, true, 2⟩ ∧ (answer (hostEvent .resetIntc s)).pc = s.pc
      := by decide
/-- The CPU constructed again: its registers and `initialized` are as constructed, DRAM and the INTC are kept, and the next
step is the host error until `initializeCPU` (R374). -/
theorem test_construct_cpu :
    let s := start data [(4#5, 7#32)] (fl true false false false false)
    let t := answer (hostEvent .constructCpu { s with intc := { s.intc with status := 0x80#32 } })
    let u := answer (hostEvent (.initializeCpu true) t)
    t.getReg 4#5 = 0#32 ∧ t.flags.n = false ∧ t.pc = 0x9E000000#32 ∧ t.initialized = false ∧ t.intc.status = 0x80#32
      ∧ t.peekByte 0xA0000010#32 = some 0x0D#8 ∧ u.running = true
      ∧ (match step t with
        | .fault .notInitialized => true
        | _ => false) = true := by decide
/-- A segment is bound before `initializeCPU` and never after it; the later binding replaces the earlier (R62, R91). -/
theorem test_set_region :
    let bind (seg : BitVec 8) (r : Region) := Event.host (.setRegion seg r)
    let t := answer (runEvents [bind 0x80#8 .cdrom, bind 0x80#8 (.dense .dram), bind 0x09#8 .sink] State.constructed)
    t.region 0x80001234#32 = .dense .dram ∧ t.region 0x09000000#32 = .sink ∧ t.region 0xA0000000#32 = .dense .dram
      ∧ (match hostEvent (.setRegion 0x80#8 .sink) State.reset with
        | .refused .rebindAfterSetup => true
        | _ => false) = true := by decide
/-- The lines with a device: each enters at cr3 plus four times its number (R332, R345). -/
theorem test_irq_lines :
    ([Config.irqVBlank, Config.irqTimer, Config.irqCdrom, Config.irqUart, Config.irqAudio].map fun i =>
        (answer (hostEvent (.trigger i) vectored)).pc)
      = [0xA0000010#32, 0xA0000014#32, 0xA0000018#32, 0xA000001C#32, 0xA0000028#32] := by decide
/-- The peripherals of R79 are outside the INTC register file. -/
theorem test_peripheral_offsets :
    [Config.spuOffset, Config.vduOffset, Config.timerOffset, Config.uartOffset].map inIntc = [false, false, false, false]
      ∧ inIntc Config.intMaskOffset = true ∧ inIntc (Config.intAckOffset + 3) = true
      ∧ inIntc (Config.intAckOffset + 4) = false := by decide
/-- A program's first step from reset: the host loads an image, and the fetch is at the boot vector (log entry 2). -/
theorem test_first_instruction :
    let s := answer (hostEvent (.loadImage .flash 0 [0x01#8, 0x00#8, 0x5C#8, 0x08#8]) State.reset)
    (answer (step (State.reset.withFetchWord 32 0x085C0001))).pc = 0x9E000004#32
      ∧ decide (s = State.reset.withFetchWord 32 0x085C0001) = true := by decide

/-! ## For every obligation with hypotheses: a state and operands that meet them, each clause at its boundaries -/

theorem witness_DecodeOfEncode :
    (Instr.add 31#5 31#5 31#5 true).wellFormed = true ∧ (encode (.add 31#5 31#5 31#5 true)).size = 4
      ∧ (Instr.mvC 15#5 15#5).wellFormed = true ∧ (encode (.mvC 15#5 15#5)).size = 2
      ∧ (0x4000#16).getLsbD 14 = true := by decide
theorem witness_IgnoredBitsDoNotMatter :
    ignoredBits 0x00308811#32 = 0x06000380#32 ∧ 0x06000380#32 &&& ~~~ignoredBits 0x00308811#32 = 0#32
      ∧ decode (0x00308811#32 ^^^ 0x06000380#32) = .ok (.add 3#5 1#5 2#5 true)
      ∧ ignoredBits 0x00000000#32 = 0x07FFFF81#32 ∧ decode 0x07FFFF81#32 = .ok .nop
      ∧ ignoredBits 0x20000808#32 = 0#32 ∧ ignoredBits 0x30000000#32 = 0x06000000#32
      ∧ ignoredBits 0x40004002#32 = 0xBFFF0F00#32 := by decide
theorem witness_LengthIsBit30 :
    decode 0x00308811#32 = .ok (.add 3#5 1#5 2#5 true) ∧ (0x00308811#32).getLsbD 30 = false
      ∧ decode 0x40004451#32 = .ok (.mvC 4#5 5#5) ∧ (0x40004451#32).getLsbD 30 = true
      ∧ (0xFFFF4451#32).getLsbD 30 = true
      ∧ (0xFFFF4451#32).setWidth 16 = (0x40004451#32).setWidth 16 := by decide
theorem witness_ConditionsOrderAfterCompare :
    let s := start [] [(4#5, 0x80000000#32), (5#5, 0x7FFFFFFF#32)] (fl false false false false false)
    let t := answer (exec (.cmp 4#5 5#5) s)
    sameNext (exec (.cmp 4#5 5#5) s) t = true ∧ t.flags.cond .hi = true ∧ t.flags.cond .lt = true
      ∧ (answer (exec (.cmp 4#5 4#5) s)).flags.cond .eq = true := by decide
theorem witness_DivisionResults :
    let s := start [] [(4#5, 0x80000000#32), (5#5, 0xFFFFFFFF#32), (6#5, 0xFFFFFFF9#32), (7#5, 2#32)]
      (fl false false false false false)
    let t := answer (exec (.div 6#5 7#5) s)
    (s.getReg 0#5).toNat = 0 ∧ ((s.getReg 4#5).toInt = -2 ^ 31 ∧ (s.getReg 5#5).toInt = -1)
      ∧ (answer (exec (.div 4#5 5#5) s)).cel = 0x80000000#32 ∧ t.cel = 0xFFFFFFFD#32 ∧ t.ceh = 0xFFFFFFFF#32 := by decide
theorem witness_DivisionByZeroIsNoOp :
    let s := holding 0x00020044
    let u := holding 0x00020046
    s.getReg 0#5 = 0#32 ∧ s.running = true ∧ s.fetchable s.pc = true ∧ s.atBreakpoint = false
      ∧ decode (s.memRead s.pc .word).1 = .ok (.div 4#5 0#5) ∧ u.running = true
      ∧ decode (u.memRead u.pc .word).1 = .ok (.divu 4#5 0#5) := by decide
theorem witness_BranchesFollowTheCondition :
    (fl false true false false false).cond .eq = true ∧ (fl false false false false false).cond .eq = false := by decide
/-- The lines 0, 31 and, outside the range, -1 and 32; line 3 masked. -/
theorem witness_TriggerDelivers :
    (answer (hostEvent (.trigger 0) vectored)).pc = 0xA0000000#32
      ∧ (answer (hostEvent (.trigger 31) vectored)).pc = 0xA000007C#32
      ∧ (answer (hostEvent (.trigger (-1)) vectored)).intc.blocked = 1
      ∧ (answer (hostEvent (.trigger 32) vectored)).intc.blocked = 1
      ∧ (answer (hostEvent (.trigger 32) vectored)).intc.status = 0#32
      ∧ (answer (hostEvent (.trigger 3) { vectored with intc := { vectored.intc with mask := ~~~8#32 } })).intc.blocked = 1
      := by decide
theorem witness_NestedEntryClobbers :
    vectored.intc.mask.getLsbD (0#5).toNat = true ∧ vectored.intc.mask.getLsbD (31#5).toNat = true
      ∧ vectored.intc.cpuConnected = true := by decide
/-- Two segments bound to one region: the same offset in either is the same place. -/
theorem witness_AddressDecomposition :
    let s := answer (hostEvent (.setRegion 0x80#8 (.dense .dram)) { idle with initialized := false })
    s.region 0xA0001000#32 = s.region 0x80001000#32 ∧ offsetOf 0xA0001000#32 = offsetOf 0x80001000#32
      ∧ segmentOf 0xFFFFFFFF#32 = 255 ∧ offsetOf 0xFFFFFFFF#32 = 0xFFFFFF := by decide
theorem witness_DenseReadIsLittleEndian :
    idle.region 0xA0FFFFFC#32 = .dense .dram ∧ offsetOf 0xA0FFFFFC#32 + Width.word.bytes = Dense.dram.size
      ∧ Dense.dram.size < offsetOf 0xA0FFFFFD#32 + Width.word.bytes ∧ idle.region 0xA0FFFFFD#32 = .dense .dram
      ∧ idle.region 0x9E7FFFFF#32 = .dense .flash ∧ offsetOf 0x9E7FFFFF#32 + Width.byte.bytes = Dense.flash.size
      ∧ idle.region 0x9E7FFFFF#32 = .dense .flash
      ∧ Dense.flash.size < offsetOf 0x9E7FFFFF#32 + Width.half.bytes := by decide
theorem witness_HostRunControls :
    State.reset.initialized = true ∧ State.constructed.initialized = false := by decide
theorem witness_DramReadAfterWrite :
    idle.region 0xA0FFFFFC#32 = .dense .dram ∧ offsetOf 0xA0FFFFFC#32 + Width.word.bytes ≤ Config.dramSize
      ∧ ((idle.memWrite 0xA0FFFFFC#32 .word 0xDEADBEEF#32).memRead 0xA0FFFFFC#32 .word).1 = 0xDEADBEEF#32
      ∧ ((idle.memWrite 0xA0FFFFFF#32 .byte 0xDEADBEEF#32).memRead 0xA0FFFFFF#32 .byte).1 = 0xEF#32 := by decide
theorem witness_SinkReadsZero : idle.region 0#32 = .sink ∧ idle.region 0xFFFFFFFF#32 = .sink := by decide
theorem witness_PeripheralReadIsFree :
    idle.region 0x09000000#32 = .cdrom ∧ idle.region 0x08000010#32 = .mmio ∧ offsetOf 0x08000010#32 = 16 := by decide
theorem witness_IntcRegisterFile :
    idle.region 0x08000000#32 = .mmio ∧ offsetOf 0x08000000#32 = 0 ∧ idle.region 0x0800000F#32 = .mmio
      ∧ offsetOf 0x0800000F#32 + Width.byte.bytes = 16 ∧ offsetOf 0x08000004#32 = 4 ∧ offsetOf 0x08000008#32 = 8
      ∧ offsetOf 0x0800000C#32 = 12 ∧ offsetOf 0x0800000C#32 + Width.word.bytes = 16
      ∧ (idle.memRead 0x08000003#32 .half).1 = 0xFF#32 := by decide
/-- The regions a store can reach: the last word of DRAM, one past it, FLASH, the CD-ROM controller, the sink, MMIO. -/
theorem witness_Stored :
    idle.region 0xA0FFFFFC#32 = .dense .dram ∧ offsetOf 0xA0FFFFFC#32 + 4 = Config.dramSize
      ∧ Config.dramSize < offsetOf 0xA0FFFFFD#32 + 4 ∧ idle.region 0x9E000000#32 = .dense .flash
      ∧ idle.region 0x09000000#32 = .cdrom ∧ idle.region 0x70000000#32 = .sink ∧ idle.region 0x08000000#32 = .mmio
      ∧ (idle.memWrite 0xA0FFFFFC#32 .word 0xDEADBEEF#32).peekByte 0xA0FFFFFF#32 = some 0xDE#8
      ∧ (idle.memWrite 0xA0FFFFFD#32 .word 0xDEADBEEF#32).peekByte 0xA0FFFFFF#32 = some 0#8 := by decide
theorem witness_StepRunsTheDecodedInstruction :
    let s := holding 0x00308811
    s.running = true ∧ s.fetchable s.pc = true ∧ s.atBreakpoint = false
      ∧ decode (s.memRead s.pc .word).1 = .ok (.add 3#5 1#5 2#5 true) := by decide
theorem witness_StepGuards :
    State.constructed.initialized = false
      ∧ ({ idle with halted := true }.initialized = true ∧ { idle with halted := true }.halted = true)
      ∧ ({ idle with paused := true }.initialized = true ∧ { idle with paused := true }.paused = true)
      ∧ ({ idle with miuAttached := false }.initialized = true ∧ { idle with miuAttached := false }.halted = false
        ∧ { idle with miuAttached := false }.paused = false ∧ { idle with miuAttached := false }.miuAttached = false)
      ∧ ({ idle with breakpoints := [0xA0001000] }.running = true ∧ idle.fetchable idle.pc = true
        ∧ idle.pc.toNat ∈ [0xA0001000]) := by decide
theorem witness_IllegalFetchEnters :
    idle.running = true ∧ idle.region 0x12345678#32 = .sink ∧ idle.region 0x08000000#32 = .mmio
      ∧ idle.region 0x09000000#32 = .cdrom ∧ idle.region 0xA0FFFFFD#32 = .dense .dram
      ∧ Dense.dram.size < offsetOf 0xA0FFFFFD#32 + 4 ∧ idle.region 0x9E800000#32 = .dense .flash
      ∧ Dense.flash.size < offsetOf 0x9E7FFFFD#32 + 4 := by decide
theorem witness_ReservedEncodingIsStepFault :
    let s := { holding 0x30000000 with faultCount := 100 }
    s.running = true ∧ s.fetchable s.pc = true ∧ s.atBreakpoint = false
      ∧ decode (s.memRead s.pc .word).1 = .error .primaryOpcode := by decide
theorem witness_BreakerHaltsAtTheHundredAndFirst :
    let s := holding 0x30000000
    let u := { idle with miuAttached := false }
    (s.initialized = true ∧ s.halted = false ∧ s.paused = false ∧ s.faultCount = 0 ∧ s.fetchable s.pc = true
        ∧ s.atBreakpoint = false ∧ decode (s.memRead s.pc .word).1 = .error .primaryOpcode)
      ∧ (u.initialized = true ∧ u.halted = false ∧ u.paused = false ∧ u.faultCount = 0 ∧ u.miuAttached = false) := by decide
theorem witness_InitializedMachineNeverStops : State.reset.initialized = true := by decide
/-- Each premise of the four clauses is met: T, a control register, a system register and the CE pair do change. -/
theorem witness_OnlyNamedInstructionsWriteSpecialState :
    let s := start [] [(4#5, 1#32)] (fl false false false false false)
    sameNext (exec (.bittst 4#5 0#5) s) (answer (exec (.bittst 4#5 0#5) s)) = true
      ∧ (answer (exec (.bittst 4#5 0#5) s)).flags.t ≠ s.flags.t
      ∧ (answer (exec .syscall s)).getCr 2#5 ≠ s.getCr 2#5
      ∧ (answer (exec (.mtsr 4#5 1#5) s)).getSr 1#5 ≠ s.getSr 1#5
      ∧ (answer (exec (.mul 4#5 4#5) s)).cel ≠ s.cel := by decide
theorem witness_StepNeverChangesFlash :
    sameNext (step State.reset) { State.reset with pc := 0x9E000004#32, cycles := 1#64, instructions := 1#64 } = true := by
  decide
theorem witness_StepKeepsInvariant :
    State.reset.Inv ∧ step State.reset
      = .next { State.reset with pc := 0x9E000004#32, cycles := 1#64, instructions := 1#64 } := by
  refine ⟨⟨?_, ?_, ?_, ?_, ?_, ?_, ?_, ?_⟩, rfl⟩ <;> decide
theorem witness_HostEventsKeepInvariant :
    State.reset.Inv ∧ hostEvent .detachMiu State.reset = .next { State.reset with miuAttached := false } := by
  refine ⟨⟨?_, ?_, ?_, ?_, ?_, ?_, ?_, ?_⟩, rfl⟩ <;> decide

end Sys2Proof.Tests
end

section
/-! PROOFS. Address decomposition and the sink (20_memory.md R61, R68). -/

namespace Sys2Proof.Machine

/-! ### The two parts of an address -/

theorem segmentOf_eq_div (a : Word) : segmentOf a = a.toNat / 2 ^ 24 := by
  rw [segmentOf, BitVec.toNat_ushiftRight, Nat.shiftRight_eq_div_pow]

/-- The mask of R61 is `2 ^ 24 - 1`, so it cuts the address to its low 24 bits. -/
theorem offsetOf_eq_mod (a : Word) : offsetOf a = a.toNat % 2 ^ 24 := by
  have mask : (0xFFFFFF#32).toNat = 2 ^ 24 - 1 := rfl
  rw [offsetOf, BitVec.toNat_and, mask, Nat.and_two_pow_sub_one_eq_mod]

/-! ### An access sees the region and the offset only -/

variable {s : State} {a b : Word}

theorem State.memRead_eq_of_region_offset (hr : s.region a = s.region b) (ho : offsetOf a = offsetOf b) (w : Width) :
    s.memRead a w = s.memRead b w := by
  unfold State.memRead
  rw [hr, ho]

theorem State.memWrite_eq_of_region_offset (hr : s.region a = s.region b) (ho : offsetOf a = offsetOf b) (w : Width)
    (v : Word) : s.memWrite a w v = s.memWrite b w v := by
  unfold State.memWrite
  rw [hr, ho]

/-! ### The sink -/

theorem State.memRead_sink (h : s.region a = .sink) (w : Width) : s.memRead a w = (0#32, s) := by
  simp [State.memRead, h, Config.sinkValue]

/-- Of what a write can do, the dense store and the INTC update each need another region. -/
theorem State.memWrite_sink (h : s.region a = .sink) (w : Width) (v : Word) : s.memWrite a w v = s := by
  rcases s.memWrite_cases a w v with unchanged | ⟨d, hd, _⟩ | ⟨hm, _⟩
  · exact unchanged
  · simp [h] at hd
  · simp [h] at hm

end Sys2Proof.Machine
end

section
/-! PROOFS. The statements of 20_memory.md on address decomposition and the sink. -/

namespace Sys2Proof.Machine

/-- Settles O40: the split is a division by `2 ^ 24`, and neither access uses the address but for its region and its
offset. -/
theorem addressDecomposition : Obligations.AddressDecomposition :=
  ⟨fun a => ⟨segmentOf_eq_div a, offsetOf_eq_mod a⟩, fun _ _ _ w hr ho =>
    ⟨State.memRead_eq_of_region_offset hr ho w, State.memWrite_eq_of_region_offset hr ho w⟩⟩

/-- Settles O43, from the sink's read rule and its write rule. -/
theorem sinkReadsZero : Obligations.SinkReadsZero :=
  fun _ _ v w h => ⟨State.memRead_sink h w, State.memWrite_sink h w v⟩

end Sys2Proof.Machine
end

section
/-! PROOFS. Jumps: the target's integer reading, and the whole effect of a jump with and without a link (30_encoding.md
R121, 10_state.md R22). -/

namespace Sys2Proof.Machine

/-! ### The target -/

/-- Relative targets of every displacement width: the sign extension and the shift by one are `2 * disp.toInt` modulo
2^32. -/
theorem pcRelative_eq_ofInt {n : Nat} (pc : Word) (disp : BitVec n) :
    pc + (disp.signExtend 32 <<< 1) = BitVec.ofInt 32 (pc.toNat + 2 * disp.toInt) := by
  have doubled : disp.signExtend 32 <<< 1 = BitVec.ofInt 32 (2 * disp.toInt) := by
    rw [BitVec.shiftLeft_eq_mul_twoPow, BitVec.signExtend, mul_comm, BitVec.ofInt_mul]
    rfl
  rw [doubled, BitVec.ofInt_add, BitVec.ofInt_natCast, BitVec.ofNat_toNat, BitVec.setWidth_eq]

theorem jTarget_eq_ofInt (pc : Word) (disp : BitVec 24) :
    jTarget pc disp = BitVec.ofInt 32 (pc.toNat + 2 * disp.toInt) := pcRelative_eq_ofInt pc disp

/-- The reach of a J-Form displacement. -/
theorem disp24_reach (disp : BitVec 24) : -2 ^ 24 ≤ 2 * disp.toInt ∧ 2 * disp.toInt ≤ 2 ^ 24 - 2 := by
  have low := BitVec.le_toInt disp
  have high := BitVec.toInt_lt (x := disp)
  omega

/-! ### What a jump and a register write leave unchanged -/

variable {s t : State}

theorem OnlyCore.refl (s : State) : OnlyCore s s where
  sr _ _ := rfl
  cr _ := rfl
  ce := ⟨rfl, rfl⟩
  run := ⟨rfl, rfl, rfl, rfl, rfl, rfl, rfl, rfl, rfl⟩
  memory := ⟨rfl, rfl, fun _ => rfl⟩
  draws := rfl

theorem OnlyCore.jump (h : OnlyCore s t) (a : Word) : OnlyCore s (t.jump a) where
  sr := h.sr
  cr := h.cr
  ce := h.ce
  run := { h.run with }
  memory := { h.memory with }
  draws := h.draws

theorem State.getSr_setReg (r : Reg) (v : Word) (n : SpecialIdx) : (t.setReg r v).getSr n = t.getSr n := by
  simp [State.getSr]

theorem OnlyCore.setReg (h : OnlyCore s t) (r : Reg) (v : Word) : OnlyCore s (t.setReg r v) where
  sr n hn := (State.getSr_setReg r v n).trans (h.sr n hn)
  cr n := (State.getCr_of_cr (t.setReg_cr r v) n).trans (h.cr n)
  ce := ⟨(t.setReg_cel r v).trans h.ce.1, (t.setReg_ceh r v).trans h.ce.2⟩
  run := by
    obtain ⟨cycles, instructions, halted, faultCount, initialized, attached, paused, breakpoints, segments⟩ := h.run
    constructor <;> simpa
  memory := by
    obtain ⟨mem, intc, bytes⟩ := h.memory
    refine ⟨by simpa, by simpa, fun a => ?_⟩
    exact (State.peekByte_congr (t.setReg_mem r v) (t.setReg_intc r v) (t.setReg_segments r v) a).trans (bytes a)
  draws := (t.setReg_draws r v).trans h.draws

/-! ### The effect of a jump -/

theorem jumpEffect_jump (s : State) (a : Word) : JumpEffect (.next (s.jump a)) s a none :=
  ⟨_, rfl, fun _ => rfl, rfl, rfl, (OnlyCore.refl s).jump a⟩

/-- The link goes to r3 before pc moves (R22). -/
theorem jumpEffect_link_jump (s : State) (v a : Word) :
    JumpEffect (.next ((s.link v).jump a)) s a (some v) :=
  ⟨_, rfl, fun q => s.getReg_setReg Config.linkReg q v, s.setReg_flags Config.linkReg v, rfl,
    ((OnlyCore.refl s).setReg Config.linkReg v).jump a⟩

end Sys2Proof.Machine
end

section
/-! PROOFS. The statement of 30_encoding.md on the J-Form target. -/

namespace Sys2Proof.Machine

/-- Settles O26: both forms jump to `jTarget`, which is the integer target of R121. -/
theorem jumpsReachTheTarget : Obligations.JumpsReachTheTarget := by
  intro disp s target
  have reached : jTarget s.pc disp = target := jTarget_eq_ofInt s.pc disp
  rw [exec_j, exec_jl, reached]
  exact ⟨jumpEffect_jump s target, jumpEffect_link_jump s (s.pc + 4#32) target, disp24_reach disp⟩

end Sys2Proof.Machine
end

section
/-! PROOFS. Division by zero (40_alu_primitives.md R154), and what a step that runs a decoded instruction returns
(30_encoding.md R18, R100). -/

namespace Sys2Proof.Machine

/-! ### The primitives give no pair for a divisor of 0 -/

theorem divPair_zero (a : Word) : divPair a 0#32 = none := if_pos rfl

theorem divuPair_zero (a : Word) : divuPair a 0#32 = none := if_pos rfl

/-! ### The instructions then only advance pc -/

variable {s : State} {ra rb : Reg}

@[simp] theorem State.divideInto_none (s : State) : s.divideInto none = s := rfl

theorem exec_div_of_divisor_zero (zero : s.getReg rb = 0#32) : exec (.div ra rb) s = .next (s.advance 4#32) := by
  rw [exec_div, zero, divPair_zero, State.divideInto_none]

theorem exec_divu_of_divisor_zero (zero : s.getReg rb = 0#32) : exec (.divu ra rb) s = .next (s.advance 4#32) := by
  rw [exec_divu, zero, divuPair_zero, State.divideInto_none]

/-! ### The step -/

/-- The items of R100 that return false are those `step_of_decoded` excludes. -/
theorem stepReturn_of_decoded (running : s.running = true) (fetchable : s.fetchable s.pc = true)
    (noBreak : s.atBreakpoint = false) {i : Instr} (decoded : decode (s.memRead s.pc .word).1 = .ok i) :
    s.stepReturn = .returnsTrue := by
  obtain ⟨initialized, halted, paused, attached⟩ := s.running_iff.1 running
  unfold State.stepReturn
  rw [State.decode_fetchBytes, decoded]
  simp [initialized, halted, paused, attached, fetchable, noBreak]

end Sys2Proof.Machine
end

section
/-! PROOFS. The statement of 40_alu_primitives.md on division by zero. -/

namespace Sys2Proof.Machine

/-- Settles O21: `div` and `divu` only advance pc, so a step that decodes either one retires just that. -/
theorem divisionByZeroIsNoOp : Obligations.DivisionByZeroIsNoOp := by
  intro ra rb s zero
  have div : exec (.div ra rb) s = .next (s.advance 4#32) := exec_div_of_divisor_zero zero
  have divu : exec (.divu ra rb) s = .next (s.advance 4#32) := exec_divu_of_divisor_zero zero
  refine ⟨div, divu, fun running fetchable noBreak decoded => ?_⟩
  rcases decoded with decoded | decoded
  · exact ⟨stepReturn_of_decoded running fetchable noBreak decoded,
      step_of_decoded running fetchable noBreak decoded div⟩
  · exact ⟨stepReturn_of_decoded running fetchable noBreak decoded,
      step_of_decoded running fetchable noBreak decoded divu⟩

end Sys2Proof.Machine
end

section
/-! PROOFS. The decoder on each form's word, and the round trip through the encoder (30_encoding.md R102 to R116). -/

namespace Sys2Proof

/-! ### The decoder picks the form by the primary opcode -/

/-- Bit 30 of a word is bit 3 of its primary opcode. -/
theorem getLsbD_opcode (w : Word) : (field w 27 5).getLsbD 3 = w.getLsbD 30 := by
  simp only [getLsbD_field, Nat.reduceLT, decide_true, Bool.true_and, Nat.reduceAdd]

theorem decode_of_compressed {w : Word} (short : w.getLsbD 30 = true) : decode w = decodeCompressed (field w 0 16) := by
  have bit : (field w 27 5).getLsbD 3 = true := (getLsbD_opcode w).trans short
  simp only [decode, bit, if_true]

theorem decode_of_sp {w : Word} (op : field w 27 5 = 0x00#5) : decode w = decodeSp w := by simp [decode, op]
theorem decode_of_i {w : Word} (op : field w 27 5 = 0x01#5) : decode w = decodeI false w := by simp [decode, op]
theorem decode_of_j {w : Word} (op : field w 27 5 = 0x02#5) : decode w = decodeJ w := by simp [decode, op]
theorem decode_of_rix {w : Word} (op : field w 27 5 = 0x03#5) : decode w = decodeRix false w := by simp [decode, op]
theorem decode_of_b {w : Word} (op : field w 27 5 = 0x04#5) : decode w = decodeB w := by simp [decode, op]
theorem decode_of_upperI {w : Word} (op : field w 27 5 = 0x05#5) : decode w = decodeI true w := by simp [decode, op]
theorem decode_of_reserved {w : Word} (op : field w 27 5 = 0x06#5) : decode w = .error .primaryOpcode := by
  simp [decode, op]
theorem decode_of_post {w : Word} (op : field w 27 5 = 0x07#5) : decode w = decodeRix true w := by simp [decode, op]

theorem decode_of_mem {w : Word} (high : field w 30 2 = 2#2) : decode w = decodeMem w := by
  have bits : ∀ op : BitVec 5, field op 3 2 = 2#2 →
      op.getLsbD 3 = false ∧ op ∉ [0x00#5, 0x01#5, 0x02#5, 0x03#5, 0x04#5, 0x05#5, 0x06#5, 0x07#5] := by decide
  have split : field (field w 27 5) 3 2 = field w 30 2 := by
    apply BitVec.eq_of_getLsbD_eq
    intro i hi
    have inside : 3 + i < 5 := by omega
    simp only [getLsbD_field, hi, inside, decide_true, Bool.true_and]
    congr 1
    omega
  obtain ⟨long, others⟩ := bits _ (split.trans high)
  simp only [List.mem_cons, List.not_mem_nil, or_false, not_or] at others
  simp only [decode, long]
  split <;> simp_all

theorem decode_spWord (func6 : BitVec 6) (rd ra rb : BitVec 5) (cu : Bool) :
    decode (spWord func6 rd ra rb cu) = decodeSp (spWord func6 rd ra rb cu) := decode_of_sp (spWord_opcode ..)
theorem decode_iWord (func3 : BitVec 3) (rd : Reg) (imm : BitVec 16) (cu : Bool) :
    decode (iWord 0x01#5 func3 rd imm cu) = decodeI false (iWord 0x01#5 func3 rd imm cu) := decode_of_i (iWord_opcode ..)
theorem decode_upperIWord (func3 : BitVec 3) (rd : Reg) (imm : BitVec 16) (cu : Bool) :
    decode (iWord 0x05#5 func3 rd imm cu) = decodeI true (iWord 0x05#5 func3 rd imm cu) :=
  decode_of_upperI (iWord_opcode ..)
theorem decode_rixWord (func3 : BitVec 3) (rd ra : Reg) (imm : BitVec 12) :
    decode (rixWord 0x03#5 func3 rd ra imm) = decodeRix false (rixWord 0x03#5 func3 rd ra imm) :=
  decode_of_rix (rixWord_opcode ..)
theorem decode_postWord (func3 : BitVec 3) (rd ra : Reg) (imm : BitVec 12) :
    decode (rixWord 0x07#5 func3 rd ra imm) = decodeRix true (rixWord 0x07#5 func3 rd ra imm) :=
  decode_of_post (rixWord_opcode ..)
theorem decode_memWord (func3 : BitVec 3) (rd ra : Reg) (imm : BitVec 15) :
    decode (memWord func3 rd ra imm) = decodeMem (memWord func3 rd ra imm) := decode_of_mem (memWord_high ..)

theorem decode_jWord (disp : BitVec 24) (lk : Bool) :
    decode (jWord disp lk) = .ok (if lk then .jl disp else .j disp) := by
  rw [decode_of_j (jWord_opcode ..), decodeJ, jWord_disp, jWord_link]
  cases lk <;> rfl

theorem decode_bWord (c : Cond) (disp : BitVec 22) (lk : Bool) :
    decode (bWord c disp lk) = .ok (if lk then .bCondL c disp else .bCond c disp) := by
  rw [decode_of_b (bWord_opcode ..), decodeB, bWord_cond, bWord_high, bWord_low, bWord_link, disp22_parts,
    Cond.ofCode_code]
  cases lk <;> rfl

/-- A halfword followed by one with bit 14 set is decoded as compressed, by itself alone (R104). -/
theorem decode_fetched_short (h : Half) {next : Half} (follow : next.getLsbD 14 = true) :
    decode ((Code.short h).fetched next) = decodeCompressed h := by
  have bit : ((Code.short h).fetched next).getLsbD 30 = true := by
    have inside := getLsbD_field ((Code.short h).fetched next) 16 16 14
    rw [fetched_high] at inside
    simpa only [Nat.reduceLT, decide_true, Bool.true_and, Nat.reduceAdd, follow] using inside.symm
  rw [decode_of_compressed bit, fetched_low]

end Sys2Proof
end


section
/-! PROOFS. The statement of 30_encoding.md on the round trip. -/

namespace Sys2Proof.Machine

/-- Settles O1, form by form: the decoder reads back from each form's word the fields the encoder placed in it. -/
theorem decodeOfEncode : Obligations.DecodeOfEncode := by
  intro i next wf follow
  cases i
  case nop | syscall | trap | sdbbp | rte | add | addc | sub | subc | cmp | neg | and | or | not | xor | bitclr
    | bitset | bittst | bittgl | sll | srl | sra | ror | rorc | rol | rolc | mul | mulu | div | divu | mfcr | mtcr | mfsr
    | mtsr | tCond | mvCond | extsb | extsh | extzb | extzh | lcb | lcw | scb | scw | slli | srli | srai | rori | roric
    | roli | rolic =>
    simp only [encode, Code.fetched, decode_spWord, decodeSp, spWord_func6, spWord_rd, spWord_ra, spWord_rb, spWord_cond,
      spWord_cu, Cond.field_code, Cond.ofCode_code]
  case br | brl =>
    simp only [encode, Code.fetched, decode_spWord, decodeSp, spWord_func6, spWord_ra, spWord_cu,
      Bool.false_eq_true, reduceIte]
  case mfcel | mfceh | mfcehl | mtcel | mtceh | mtcehl =>
    simp only [encode, Code.fetched, decode_spWord, decodeSp, spWord_func6, spWord_rd, spWord_ra, spWord_sel]
    rfl
  case addi | cmpi | andi | ori | ldi =>
    simp only [encode, Code.fetched, decode_iWord, decodeI, iWord_func3, iWord_rd, iWord_imm, iWord_link,
      Bool.false_eq_true, reduceIte]
  case addis | cmpis | andis | oris | ldis =>
    simp only [encode, Code.fetched, decode_upperIWord, decodeI, iWord_func3, iWord_rd, iWord_imm, iWord_link,
      reduceIte]
  case j | jl => simp [encode, Code.fetched, decode_jWord]
  case bCond | bCondL => simp [encode, Code.fetched, decode_bWord]
  case lwRix | lhRix | lhuRix | lbRix | swRix | shRix | lbuRix =>
    simp only [encode, Code.fetched, decode_rixWord, decodeRix, rixWord_func3, rixWord_rd, rixWord_ra, rixWord_imm,
      Bool.false_eq_true, reduceIte]
  case lwPi | lhPi | lhuPi | lbPi | swPi | shPi | lbuPi =>
    simp only [encode, Code.fetched, decode_postWord, decodeRix, rixWord_func3, rixWord_rd, rixWord_ra, rixWord_imm,
      reduceIte]
  case lw | lh | lhu | lb | sw | sh | lbu =>
    simp only [encode, Code.fetched, decode_memWord, decodeMem, memWord_func3, memWord_rd, memWord_ra, memWord_imm]
  -- the default arms of the two memory decoders' func3
  case sbRix =>
    simp only [encode, Code.fetched, decode_rixWord, decodeRix, rixWord_func3, rixWord_rd, rixWord_ra, rixWord_imm]
    rfl
  case sbPi =>
    simp only [encode, Code.fetched, decode_postWord, decodeRix, rixWord_func3, rixWord_rd, rixWord_ra, rixWord_imm]
    rfl
  case sb =>
    simp only [encode, Code.fetched, decode_memWord, decodeMem, memWord_func3, memWord_rd, memWord_ra, memWord_imm]
    rfl
  case nopC | mvC | brC | brlC | breakC | lwC | lhC | lhuC | lbC | swC | shC | lbuC | sbC | popC | pushC | extsbC | extshC
    | extzbC | extzhC =>
    simp only [Instr.wellFormed, Bool.and_eq_true] at wf
    simp only [encode, decode_fetched_short _ (follow rfl), decodeCompressed, crrHalf_table, crrHalf_func4, crrHalf_rd,
      crrHalf_ra, lowRegOf_field, wf]
  case addiC | cmpiC | andiC | oriC | ldiC | slliC | srliC | sraiC | roriC | roliC =>
    simp only [Instr.wellFormed] at wf
    simp only [encode, decode_fetched_short _ (follow rfl), decodeCompressed, criHalf_table, criHalf_func3, criHalf_rd,
      criHalf_imm, lowRegOf_field, wf]
  case bCondC =>
    simp only [encode, decode_fetched_short _ (follow rfl), decodeCompressed, cbHalf_table, cbHalf_cond, cbHalf_disp,
      Cond.ofCode_code]
  case lwpC | swpC =>
    simp only [Instr.wellFormed] at wf
    simp only [encode, decode_fetched_short _ (follow rfl), decodeCompressed, cspHalf_table, cspHalf_store, cspHalf_rd,
      cspHalf_imm, lowRegOf_field, wf, Bool.false_eq_true, reduceIte]

end Sys2Proof.Machine
end

section
/-! PROOFS. What each form's decoder answers: the length and the operands of the instructions, and which words it rejects
(30_encoding.md R103, R104, R136, R138, R323). -/

namespace Sys2Proof

/-- A field of a field is a field of the word. -/
theorem field_field {m : Nat} (w : BitVec m) (lo n lo' n' : Nat) (inside : lo' + n' ≤ n) :
    field (field w lo n) lo' n' = field w (lo + lo') n' := by
  apply BitVec.eq_of_getLsbD_eq
  intro k hk
  have within : lo' + k < n := by omega
  simp only [getLsbD_field, hk, within, decide_true, Bool.true_and, Nat.add_assoc]

/-! ### The decoded instructions: length and operands -/

/-- The length and the operand ranges of an instruction, as its form fixes them. -/
def Instr.Fits (i : Instr) (size : Nat) : Prop := (encode i).size = size ∧ i.wellFormed = true

theorem lowReg_lowRegOf (f : BitVec 4) : lowReg (lowRegOf f) = true := by
  revert f
  decide

section
variable {w : Word} {i : Instr}

theorem decodeSp_fits (h : decodeSp w = .ok i) : i.Fits 4 := by
  unfold decodeSp at h
  dsimp only at h
  split at h
  case h_5 | h_32 | h_33 => split at h <;> cases h <;> exact ⟨rfl, rfl⟩
  all_goals cases h <;> exact ⟨rfl, rfl⟩

theorem decodeI_fits {upper : Bool} (h : decodeI upper w = .ok i) : i.Fits 4 := by
  unfold decodeI at h
  dsimp only at h
  split at h <;> cases h <;> cases upper <;> exact ⟨rfl, rfl⟩

theorem decodeJ_fits (h : decodeJ w = .ok i) : i.Fits 4 := by
  unfold decodeJ at h
  dsimp only at h
  split at h <;> cases h <;> exact ⟨rfl, rfl⟩

theorem decodeB_fits (h : decodeB w = .ok i) : i.Fits 4 := by
  unfold decodeB at h
  dsimp only at h
  split at h <;> cases h <;> exact ⟨rfl, rfl⟩

theorem decodeRix_fits {post : Bool} (h : decodeRix post w = .ok i) : i.Fits 4 := by
  unfold decodeRix at h
  dsimp only at h
  split at h <;> cases h <;> cases post <;> exact ⟨rfl, rfl⟩

theorem decodeMem_fits (h : decodeMem w = .ok i) : i.Fits 4 := by
  unfold decodeMem at h
  dsimp only at h
  split at h <;> cases h <;> exact ⟨rfl, rfl⟩

theorem decodeCompressed_fits {h : Half} (ok : decodeCompressed h = .ok i) : i.Fits 2 := by
  unfold decodeCompressed at ok
  dsimp only at ok
  split at ok
  case h_1 | h_3 | h_4 | h_6 | h_7 =>
    split at ok <;> cases ok <;> simp [Instr.Fits, encode, Code.size, Instr.wellFormed, lowReg_lowRegOf]
  case h_8 =>
    cases ok
    split <;> simp [Instr.Fits, encode, Code.size, Instr.wellFormed, lowReg_lowRegOf]
  all_goals cases ok <;> exact ⟨rfl, rfl⟩

/-- The primary opcodes of the 32-bit forms: 0 to 7, and the pairs 10 of Memory-Form (R102). -/
theorem opcode_cases (long : w.getLsbD 30 = false) :
    field w 27 5 = 0x00#5 ∨ field w 27 5 = 0x01#5 ∨ field w 27 5 = 0x02#5 ∨ field w 27 5 = 0x03#5 ∨ field w 27 5 = 0x04#5
      ∨ field w 27 5 = 0x05#5 ∨ field w 27 5 = 0x06#5 ∨ field w 27 5 = 0x07#5
      ∨ (field w 30 2 = 2#2 ∧ field w 27 5 ∉ [0x00#5, 0x01#5, 0x04#5, 0x05#5, 0x06#5]) := by
  have codes : ∀ op : BitVec 5, op.getLsbD 3 = false → op = 0x00#5 ∨ op = 0x01#5 ∨ op = 0x02#5 ∨ op = 0x03#5
      ∨ op = 0x04#5 ∨ op = 0x05#5 ∨ op = 0x06#5 ∨ op = 0x07#5
      ∨ (field op 3 2 = 2#2 ∧ op ∉ [0x00#5, 0x01#5, 0x04#5, 0x05#5, 0x06#5]) := by decide
  have high := field_field w 27 5 3 2 (by omega)
  exact high ▸ codes _ ((getLsbD_opcode w).trans long)

/-- R138: bit 30 gives the length of the decoded instruction. -/
theorem decode_fits (h : decode w = .ok i) : i.Fits (if w.getLsbD 30 then 2 else 4) := by
  cases bit : w.getLsbD 30
  · rcases opcode_cases bit with op | op | op | op | op | op | op | op | ⟨high, -⟩
    · exact decodeSp_fits (decode_of_sp op ▸ h)
    · exact decodeI_fits (decode_of_i op ▸ h)
    · exact decodeJ_fits (decode_of_j op ▸ h)
    · exact decodeRix_fits (decode_of_rix op ▸ h)
    · exact decodeB_fits (decode_of_b op ▸ h)
    · exact decodeI_fits (decode_of_upperI op ▸ h)
    · cases (decode_of_reserved op).symm.trans h
    · exact decodeRix_fits (decode_of_post op ▸ h)
    · exact decodeMem_fits (decode_of_mem high ▸ h)
  · exact decodeCompressed_fits (decode_of_compressed bit ▸ h)

end

/-! ### The rejected words -/

section
variable (w : Word)

/-- The func6 codes that a row of R130 lists are all but ten. -/
theorem spCodes (f : BitVec 6)
    (listed : f ∉ [0x05#6, 0x07#6, 0x0D#6, 0x0E#6, 0x19#6, 0x32#6, 0x33#6, 0x36#6, 0x37#6, 0x39#6]) :
    f ∈ [0x00#6, 0x01#6, 0x02#6, 0x03#6, 0x04#6, 0x06#6, 0x08#6, 0x09#6, 0x0A#6, 0x0B#6, 0x0C#6, 0x0F#6, 0x10#6, 0x11#6,
      0x12#6, 0x13#6, 0x14#6, 0x15#6, 0x16#6, 0x17#6, 0x18#6, 0x1A#6, 0x1B#6, 0x1C#6, 0x1D#6, 0x1E#6, 0x1F#6, 0x20#6,
      0x21#6, 0x22#6, 0x23#6, 0x24#6, 0x25#6, 0x26#6, 0x27#6, 0x28#6, 0x29#6, 0x2A#6, 0x2B#6, 0x2C#6, 0x2D#6, 0x2E#6,
      0x2F#6, 0x30#6, 0x31#6, 0x34#6, 0x35#6, 0x38#6, 0x3A#6, 0x3B#6, 0x3C#6, 0x3D#6, 0x3E#6, 0x3F#6] := by
  revert f
  decide

theorem decodeSp_rejects : (∃ e, decodeSp w = .error e) ↔
    field w 1 6 ∈ [0x05#6, 0x07#6, 0x0D#6, 0x0E#6, 0x19#6, 0x32#6, 0x33#6, 0x36#6, 0x37#6, 0x39#6]
      ∨ (field w 1 6 ∈ [0x24#6, 0x25#6] ∧ field w 10 2 = 0#2) := by
  unfold decodeSp
  dsimp only
  split
  case h_5 => split <;> simp [*]
  case h_32 | h_33 =>
    have selectors : ∀ sel : BitVec 2, sel ≠ 1#2 → sel ≠ 2#2 → sel ≠ 3#2 → sel = 0#2 := by decide
    split <;> simp_all
  case h_55 =>
    refine iff_of_true ⟨_, rfl⟩ (.inl ?_)
    by_contra listed
    have := spCodes _ listed
    simp_all
  all_goals simp [*]

theorem decodeI_rejects (upper : Bool) : (∃ e, decodeI upper w = .error e) ↔ field w 17 3 ∈ [1#3, 3#3, 7#3] := by
  have codes : ∀ f : BitVec 3, f ≠ 0#3 → f ≠ 2#3 → f ≠ 4#3 → f ≠ 5#3 → f ≠ 6#3 → f ∈ [1#3, 3#3, 7#3] := by decide
  unfold decodeI
  dsimp only
  split
  case h_6 h0 h2 h4 h5 h6 => exact iff_of_true ⟨_, rfl⟩ (codes _ h0 h2 h4 h5 h6)
  all_goals simp [*]

theorem decodeJ_accepts : ¬ ∃ e, decodeJ w = .error e := by
  unfold decodeJ
  dsimp only
  split <;> simp

theorem decodeB_accepts : ¬ ∃ e, decodeB w = .error e := by
  unfold decodeB
  dsimp only
  split <;> simp

theorem decodeRix_accepts (post : Bool) : ¬ ∃ e, decodeRix post w = .error e := by
  unfold decodeRix
  dsimp only
  split <;> simp

theorem decodeMem_accepts : ¬ ∃ e, decodeMem w = .error e := by
  unfold decodeMem
  dsimp only
  split <;> simp

/-- A nibble that names no table has bit 2 clear, which is bit 14 of the halfword (R105). -/
theorem nibble_of_no_table : ∀ n : BitVec 4, n ∉ [0x4#4, 0x5#4, 0x6#4, 0x7#4, 0xC#4, 0xD#4, 0xE#4, 0xF#4] →
    n.getLsbD 2 = false := by decide

/-! The codes past the last row of tables 0x4, 0x7, 0xE, and of 0x6 and 0xD (R323). -/

theorem table4_past : ∀ f : BitVec 4, f ∉ [0#4, 1#4, 2#4, 3#4, 4#4] → 5 ≤ f.toNat := by decide
theorem table7_past : ∀ f : BitVec 4, f ∉ [0#4, 1#4, 2#4, 3#4, 4#4, 5#4, 6#4, 7#4, 8#4, 9#4] → 10 ≤ f.toNat := by decide
theorem tableE_past : ∀ f : BitVec 4, f ∉ [0#4, 1#4, 2#4, 3#4] → 4 ≤ f.toNat := by decide
theorem criTable_past : ∀ f : BitVec 3, f ∉ [0#3, 1#3, 2#3, 3#3, 4#3] → 5 ≤ f.toNat := by decide

theorem decodeCompressed_rejects (h : Half) : (∃ e, decodeCompressed h = .error e) ↔
    h.getLsbD 14 = false ∨ field h 12 4 = 0x5#4
      ∨ (field h 12 4 = 0x4#4 ∧ 5 ≤ (field h 0 4).toNat) ∨ (field h 12 4 = 0x7#4 ∧ 10 ≤ (field h 0 4).toNat)
      ∨ (field h 12 4 = 0xE#4 ∧ 4 ≤ (field h 0 4).toNat)
      ∨ (field h 12 4 ∈ [0x6#4, 0xD#4] ∧ 5 ≤ (field h 5 3).toNat) := by
  have bit : h.getLsbD 14 = (field h 12 4).getLsbD 2 := by
    simp only [getLsbD_field, Nat.reduceLT, decide_true, Bool.true_and, Nat.reduceAdd]
  rw [bit]
  unfold decodeCompressed
  dsimp only
  split
  case h_1 =>
    split
    case h_6 => exact iff_of_true ⟨_, rfl⟩ (.inr (.inr (.inl ⟨‹_›, table4_past _ (by simp_all)⟩)))
    all_goals simp [*]
  case h_3 =>
    split
    case h_6 => exact iff_of_true ⟨_, rfl⟩ (.inr (.inr (.inr (.inr (.inr ⟨by simp [*], criTable_past _ (by simp_all)⟩)))))
    all_goals simp [*]
  case h_4 =>
    split
    case h_11 => exact iff_of_true ⟨_, rfl⟩ (.inr (.inr (.inr (.inl ⟨‹_›, table7_past _ (by simp_all)⟩))))
    all_goals simp [*]
  case h_6 =>
    split
    case h_6 => exact iff_of_true ⟨_, rfl⟩ (.inr (.inr (.inr (.inr (.inr ⟨by simp [*], criTable_past _ (by simp_all)⟩)))))
    all_goals simp [*]
  case h_7 =>
    split
    case h_5 => exact iff_of_true ⟨_, rfl⟩ (.inr (.inr (.inr (.inr (.inl ⟨‹_›, tableE_past _ (by simp_all)⟩)))))
    all_goals simp [*]
  case h_9 => exact iff_of_true ⟨_, rfl⟩ (.inl (nibble_of_no_table _ (by simp_all)))
  all_goals simp [*]

end

end Sys2Proof
end

section
/-! PROOFS. The statements of 30_encoding.md on lengths, reserved words and the worked examples. -/

namespace Sys2Proof.Machine

theorem field_low_half (w : Word) : field w 0 16 = w.setWidth 16 := by
  apply BitVec.eq_of_getLsbD_eq
  intro i hi
  simp only [getLsbD_field, hi, decide_true, Bool.true_and, Nat.zero_add, BitVec.getLsbD_setWidth]

/-- Settles O3: the length is that of the form's instructions, and the compressed decoder is given the low half alone. -/
theorem lengthIsBit30 : Obligations.LengthIsBit30 := by
  intro w i decoded
  refine ⟨(decode_fits decoded).1, fun short w' short' same => ?_⟩
  rw [decode_of_compressed short', field_low_half, same, ← field_low_half, ← decode_of_compressed short]
  exact decoded

/-- The opcodes of the compressed forms are none of those with reserved 32-bit words. -/
theorem opcode_of_compressed {w : Word} (short : w.getLsbD 30 = true) :
    field w 27 5 ∉ [0x00#5, 0x01#5, 0x05#5, 0x06#5] := by
  have codes : ∀ op : BitVec 5, op.getLsbD 3 = true → op ∉ [0x00#5, 0x01#5, 0x05#5, 0x06#5] := by decide
  exact codes _ ((getLsbD_opcode w).trans short)

/-- Settles O4, form by form; only SP-Form, I-Form, opcode 0x06 and the compressed forms reject a word. -/
theorem rejectedWordsAreTheReserved : Obligations.RejectedWordsAreTheReserved := by
  intro w
  cases bit : w.getLsbD 30
  · rcases opcode_cases bit with op | op | op | op | op | op | op | op | ⟨high, op⟩
    · simp [decode_of_sp op, decodeSp_rejects, op]
    · simp [decode_of_i op, decodeI_rejects, op]
    · simp [decode_of_j op, decodeJ_accepts, op]
    · simp [decode_of_rix op, decodeRix_accepts, op]
    · simp [decode_of_b op, decodeB_accepts, op]
    · simp [decode_of_upperI op, decodeI_rejects, op]
    · simp [decode_of_reserved op, op]
    · simp [decode_of_post op, decodeRix_accepts, op]
    · simp_all [decode_of_mem high, decodeMem_accepts]
  · have op := opcode_of_compressed bit
    have low : (field w 0 16).getLsbD 14 = w.getLsbD 14 := by
      simp only [getLsbD_field, Nat.reduceLT, decide_true, Bool.true_and, Nat.zero_add]
    rw [decode_of_compressed bit, decodeCompressed_rejects, low]
    simp_all [field_field]

/-- Settles O5, by evaluating the decoder on each word. -/
theorem exampleWordsDecode : Obligations.ExampleWordsDecode := by
  unfold Obligations.ExampleWordsDecode
  decide

end Sys2Proof.Machine
end

section
/-! PROOFS. The bits that an encoding ignores (30_encoding.md R104, R110 to R116, R125, R137). -/

namespace Sys2Proof.Machine

/-! ### A change inside a mask -/

/-- `x` changes no bit outside `m`. -/
def Within (x m : Word) : Prop := x &&& ~~~m = 0#32

variable {w x m : Word}

theorem Within.getLsbD_xor (within : Within x m) {i : Nat} (kept : m.getLsbD i = false) :
    (w ^^^ x).getLsbD i = w.getLsbD i := by
  have bit : (x &&& ~~~m).getLsbD i = false := by rw [within, BitVec.getLsbD_zero]
  by_cases hi : i < 32
  · rw [BitVec.getLsbD_and, BitVec.getLsbD_not, kept, decide_eq_true hi, Bool.not_false, Bool.and_true,
      Bool.and_true] at bit
    rw [BitVec.getLsbD_xor, bit, Bool.xor_false]
  · simp only [BitVec.getLsbD_of_ge _ i (Nat.le_of_not_lt hi)]

theorem Within.eq_zero (none : Within x 0#32) : x = 0#32 := by
  rwa [Within, BitVec.not_zero, BitVec.and_allOnes] at none

/-- A field that `m` leaves out is kept. -/
theorem Within.field_xor (within : Within x m) {lo n : Nat} (kept : field m lo n = 0#n) :
    field (w ^^^ x) lo n = field w lo n := by
  apply BitVec.eq_of_getLsbD_eq
  intro i hi
  have bit : (field m lo n).getLsbD i = false := by rw [kept, BitVec.getLsbD_zero]
  rw [getLsbD_field, decide_eq_true hi, Bool.true_and] at bit
  rw [getLsbD_field, getLsbD_field, within.getLsbD_xor bit]

/-! ### SP-Form -/

theorem spIgnoredBits_func6 (w : Word) : field (spIgnoredBits w) 1 6 = 0#6 := by
  unfold spIgnoredBits
  dsimp only
  split_ifs <;> decide

theorem spIgnoredBits_opcode (w : Word) : field (spIgnoredBits w) 27 5 = 0#5 := by
  unfold spIgnoredBits
  dsimp only
  split_ifs <;> decide

/-! Each group of codes reads only some of the fields. -/

section
variable {w' : Word} (func6 : field w' 1 6 = field w 1 6)
include func6

theorem decodeSp_congr_bare (f : field w 1 6 ∈ [0x00#6, 0x01#6, 0x02#6, 0x03#6, 0x06#6]) :
    decodeSp w' = decodeSp w := by
  simp only [List.mem_cons, List.not_mem_nil, or_false] at f
  rcases f with f | f | f | f | f <;> simp only [decodeSp, func6, f]

theorem decodeSp_congr_jump (f : field w 1 6 = 0x04#6) (ra : field w' 15 5 = field w 15 5)
    (cu : w'.getLsbD 0 = w.getLsbD 0) :
    decodeSp w' = decodeSp w := by
  simp only [decodeSp, func6, f, ra, cu]

theorem decodeSp_congr_sources (f : field w 1 6 ∈ [0x0C#6, 0x16#6, 0x20#6, 0x21#6, 0x22#6, 0x23#6])
    (ra : field w' 15 5 = field w 15 5) (rb : field w' 10 5 = field w 10 5) :
    decodeSp w' = decodeSp w := by
  simp only [List.mem_cons, List.not_mem_nil, or_false] at f
  rcases f with f | f | f | f | f | f <;> simp only [decodeSp, func6, f, ra, rb]

theorem decodeSp_congr_unary (f : field w 1 6 ∈ [0x0F#6, 0x12#6, 0x2C#6, 0x2D#6, 0x2E#6, 0x2F#6])
    (rd : field w' 20 5 = field w 20 5) (ra : field w' 15 5 = field w 15 5) (cu : w'.getLsbD 0 = w.getLsbD 0) :
    decodeSp w' = decodeSp w := by
  simp only [List.mem_cons, List.not_mem_nil, or_false] at f
  rcases f with f | f | f | f | f | f <;> simp only [decodeSp, func6, f, rd, ra, cu]

theorem decodeSp_congr_ce_half (f : field w 1 6 ∈ [0x24#6, 0x25#6])
    (half : field w 10 2 = 1#2 ∨ field w 10 2 = 2#2) (rd : field w' 20 5 = field w 20 5)
    (sel : field w' 10 2 = field w 10 2) :
    decodeSp w' = decodeSp w := by
  simp only [List.mem_cons, List.not_mem_nil, or_false] at f
  rcases f with f | f <;> rcases half with half | half <;> simp only [decodeSp, func6, f, rd, sel, half]

theorem decodeSp_congr_ce (f : field w 1 6 ∈ [0x24#6, 0x25#6]) (rd : field w' 20 5 = field w 20 5)
    (ra : field w' 15 5 = field w 15 5) (sel : field w' 10 2 = field w 10 2) :
    decodeSp w' = decodeSp w := by
  simp only [List.mem_cons, List.not_mem_nil, or_false] at f
  rcases f with f | f <;> simp only [decodeSp, func6, f, rd, ra, sel]

theorem decodeSp_congr_special (f : field w 1 6 ∈ [0x26#6, 0x27#6, 0x28#6, 0x29#6])
    (rd : field w' 20 5 = field w 20 5) (rb : field w' 10 5 = field w 10 5) :
    decodeSp w' = decodeSp w := by
  simp only [List.mem_cons, List.not_mem_nil, or_false] at f
  rcases f with f | f | f | f <;> simp only [decodeSp, func6, f, rd, rb]

theorem decodeSp_congr_tCond (f : field w 1 6 = 0x2A#6) (cond : field w' 10 4 = field w 10 4) :
    decodeSp w' = decodeSp w := by
  simp only [decodeSp, func6, f, cond]

theorem decodeSp_congr_mvCond (f : field w 1 6 = 0x2B#6) (rd : field w' 20 5 = field w 20 5)
    (ra : field w' 15 5 = field w 15 5) (cond : field w' 10 4 = field w 10 4) :
    decodeSp w' = decodeSp w := by
  simp only [decodeSp, func6, f, rd, ra, cond]

theorem decodeSp_congr_address (f : field w 1 6 ∈ [0x30#6, 0x31#6, 0x34#6, 0x35#6])
    (rd : field w' 20 5 = field w 20 5) (ra : field w' 15 5 = field w 15 5) :
    decodeSp w' = decodeSp w := by
  simp only [List.mem_cons, List.not_mem_nil, or_false] at f
  rcases f with f | f | f | f <;> simp only [decodeSp, func6, f, rd, ra]

theorem decodeSp_congr (rd : field w' 20 5 = field w 20 5) (ra : field w' 15 5 = field w 15 5)
    (rb : field w' 10 5 = field w 10 5) (cond : field w' 10 4 = field w 10 4)
    (sel : field w' 10 2 = field w 10 2) (cu : w'.getLsbD 0 = w.getLsbD 0) :
    decodeSp w' = decodeSp w := by
  unfold decodeSp
  dsimp only
  rw [func6, rd, ra, rb, cond, sel, cu]

end

theorem decodeSp_xor (within : Within x (spIgnoredBits w)) : decodeSp (w ^^^ x) = decodeSp w := by
  have func6 : field (w ^^^ x) 1 6 = field w 1 6 := within.field_xor (spIgnoredBits_func6 w)
  unfold spIgnoredBits at within
  dsimp only at within
  split_ifs at within with f f f f f half f f f f
  · exact decodeSp_congr_bare func6 f
  · exact decodeSp_congr_jump func6 f (within.field_xor (by decide)) (within.getLsbD_xor (by decide))
  · exact decodeSp_congr_sources func6 f (within.field_xor (by decide)) (within.field_xor (by decide))
  · exact decodeSp_congr_unary func6 f (within.field_xor (by decide)) (within.field_xor (by decide))
      (within.getLsbD_xor (by decide))
  · exact decodeSp_congr_ce_half func6 f half (within.field_xor (by decide)) (within.field_xor (by decide))
  · exact decodeSp_congr_ce func6 f (within.field_xor (by decide)) (within.field_xor (by decide))
      (within.field_xor (by decide))
  · exact decodeSp_congr_special func6 f (within.field_xor (by decide)) (within.field_xor (by decide))
  · exact decodeSp_congr_tCond func6 f (within.field_xor (by decide))
  · exact decodeSp_congr_mvCond func6 f (within.field_xor (by decide)) (within.field_xor (by decide))
      (within.field_xor (by decide))
  · exact decodeSp_congr_address func6 f (within.field_xor (by decide)) (within.field_xor (by decide))
  · exact decodeSp_congr func6 (within.field_xor (by decide)) (within.field_xor (by decide))
      (within.field_xor (by decide)) (within.field_xor (by decide)) (within.field_xor (by decide))
      (within.getLsbD_xor (by decide))

/-! ### The other 32-bit forms -/

/-- The bits every 32-bit word but a B-Form one ignores (R111 to R115). -/
theorem decodeI_xor (upper : Bool) (within : Within x 0x06000000#32) : decodeI upper (w ^^^ x) = decodeI upper w := by
  have rd : field (w ^^^ x) 20 5 = field w 20 5 := within.field_xor (by decide)
  have func3 : field (w ^^^ x) 17 3 = field w 17 3 := within.field_xor (by decide)
  have imm : field (w ^^^ x) 1 16 = field w 1 16 := within.field_xor (by decide)
  have cu : (w ^^^ x).getLsbD 0 = w.getLsbD 0 := within.getLsbD_xor (by decide)
  simp only [decodeI, rd, func3, imm, cu]

/-- The compares and load-immediates do not read CU (R233, R234, R239, R240). -/
theorem decodeI_xor_of_no_cu (upper : Bool) (noCu : field w 17 3 ∈ [2#3, 6#3]) (within : Within x 0x06000001#32) :
    decodeI upper (w ^^^ x) = decodeI upper w := by
  have rd : field (w ^^^ x) 20 5 = field w 20 5 := within.field_xor (by decide)
  have func3 : field (w ^^^ x) 17 3 = field w 17 3 := within.field_xor (by decide)
  have imm : field (w ^^^ x) 1 16 = field w 1 16 := within.field_xor (by decide)
  simp only [List.mem_cons, List.not_mem_nil, or_false] at noCu
  rcases noCu with code | code <;> simp only [decodeI, rd, func3, imm, code]

theorem decodeJ_xor (within : Within x 0x06000000#32) : decodeJ (w ^^^ x) = decodeJ w := by
  have disp : field (w ^^^ x) 1 24 = field w 1 24 := within.field_xor (by decide)
  have link : (w ^^^ x).getLsbD 0 = w.getLsbD 0 := within.getLsbD_xor (by decide)
  simp only [decodeJ, disp, link]

theorem decodeRix_xor (post : Bool) (within : Within x 0x06000000#32) :
    decodeRix post (w ^^^ x) = decodeRix post w := by
  have rd : field (w ^^^ x) 20 5 = field w 20 5 := within.field_xor (by decide)
  have ra : field (w ^^^ x) 15 5 = field w 15 5 := within.field_xor (by decide)
  have imm : field (w ^^^ x) 3 12 = field w 3 12 := within.field_xor (by decide)
  have func3 : field (w ^^^ x) 0 3 = field w 0 3 := within.field_xor (by decide)
  simp only [decodeRix, rd, ra, imm, func3]

theorem decodeMem_xor (within : Within x 0x06000000#32) : decodeMem (w ^^^ x) = decodeMem w := by
  have rd : field (w ^^^ x) 20 5 = field w 20 5 := within.field_xor (by decide)
  have ra : field (w ^^^ x) 15 5 = field w 15 5 := within.field_xor (by decide)
  have imm : field (w ^^^ x) 0 15 = field w 0 15 := within.field_xor (by decide)
  have func3 : field (w ^^^ x) 27 3 = field w 27 3 := within.field_xor (by decide)
  simp only [decodeMem, rd, ra, imm, func3]

/-! ### The compressed forms -/

/-- The codes of table 0x4 that name no register, and those that name rA only. -/
theorem decodeCompressed_xor
    (within : Within x (0xBFFF0000#32 |||
      (if field w 12 4 = 0x4#4 then
        (if field w 0 4 ∈ [0#4, 4#4] then 0x00000FF0#32 else if field w 0 4 ∈ [2#4, 3#4] then 0x00000F00#32 else 0#32)
      else 0#32))) :
    decodeCompressed (field (w ^^^ x) 0 16) = decodeCompressed (field w 0 16) := by
  split_ifs at within with table f f
  · have table' : field (w ^^^ x) 12 4 = field w 12 4 := within.field_xor (by decide)
    have func4 : field (w ^^^ x) 0 4 = field w 0 4 := within.field_xor (by decide)
    simp only [List.mem_cons, List.not_mem_nil, or_false] at f
    rcases f with f | f <;> simp [decodeCompressed, field_field, table', table, func4, f]
  · have table' : field (w ^^^ x) 12 4 = field w 12 4 := within.field_xor (by decide)
    have func4 : field (w ^^^ x) 0 4 = field w 0 4 := within.field_xor (by decide)
    have ra : field (w ^^^ x) 4 4 = field w 4 4 := within.field_xor (by decide)
    simp only [List.mem_cons, List.not_mem_nil, or_false] at f
    rcases f with f | f <;> simp [decodeCompressed, field_field, table', table, func4, f, ra]
  all_goals rw [within.field_xor (lo := 0) (n := 16) (by decide)]

end Sys2Proof.Machine
end

section
/-! PROOFS. The statement of 30_encoding.md on ignored bits. -/

namespace Sys2Proof.Machine

/-- Settles O2: bit 30 and the opcode are kept, so the form is, and each form's decoder reads only kept bits. -/
theorem ignoredBitsDoNotMatter : Obligations.IgnoredBitsDoNotMatter := by
  intro w x within
  change Within x (ignoredBits w) at within
  unfold ignoredBits at within
  dsimp only at within
  cases bit : w.getLsbD 30
  · simp only [bit, Bool.false_eq_true, if_false] at within
    have op' : field (w ^^^ x) 27 5 = field w 27 5 := by
      refine within.field_xor ?_
      split_ifs
      · exact spIgnoredBits_opcode w
      all_goals decide
    have high' : field (w ^^^ x) 30 2 = field w 30 2 := by
      rw [← field_field _ 27 5 3 2 (by omega), op', field_field _ 27 5 3 2 (by omega)]
    rcases opcode_cases bit with op | op | op | op | op | op | op | op | ⟨high, op⟩
    · rw [decode_of_sp op, decode_of_sp (op'.trans op)]
      exact decodeSp_xor (by simpa [op] using within)
    · rw [decode_of_i op, decode_of_i (op'.trans op)]
      by_cases noCu : field w 17 3 ∈ [2#3, 6#3]
      · exact decodeI_xor_of_no_cu _ noCu (by simpa [op, noCu] using within)
      · exact decodeI_xor _ (by simpa [op, noCu] using within)
    · rw [decode_of_j op, decode_of_j (op'.trans op)]
      exact decodeJ_xor (by simpa [op] using within)
    · rw [decode_of_rix op, decode_of_rix (op'.trans op)]
      exact decodeRix_xor _ (by simpa [op] using within)
    · have none : Within x 0#32 := by simpa [op] using within
      rw [none.eq_zero, BitVec.xor_zero]
    · rw [decode_of_upperI op, decode_of_upperI (op'.trans op)]
      by_cases noCu : field w 17 3 ∈ [2#3, 6#3]
      · exact decodeI_xor_of_no_cu _ noCu (by simpa [op, noCu] using within)
      · exact decodeI_xor _ (by simpa [op, noCu] using within)
    · rw [decode_of_reserved op, decode_of_reserved (op'.trans op)]
    · rw [decode_of_post op, decode_of_post (op'.trans op)]
      exact decodeRix_xor _ (by simpa [op] using within)
    · rw [decode_of_mem high, decode_of_mem (high'.trans high)]
      exact decodeMem_xor (by simp_all)
  · simp only [bit, if_true] at within
    have bit' : (w ^^^ x).getLsbD 30 = true := by
      rw [within.getLsbD_xor (by split_ifs <;> decide), bit]
    rw [decode_of_compressed bit, decode_of_compressed bit']
    exact decodeCompressed_xor within

end Sys2Proof.Machine
end

section
/-! PROOFS. What an instruction is made of: the elementary updates, and the special state it is permitted to write
(10_state.md R29, R31, R32, R38, R46). One case analysis over the instructions serves every whole-machine rule. -/

namespace Sys2Proof.Machine

/-! ### The primitives keep T -/

section
variable (f : Flags) (uf : Bool) (a b : Word)

@[simp] theorem Flags.add_t (cin : Bool) : (f.add uf a b cin).t = f.t := by
  unfold Flags.add; dsimp only; split <;> rfl
@[simp] theorem Flags.sub_t (bin : Bool) : (f.sub uf a b bin).t = f.t := by
  unfold Flags.sub; dsimp only; split <;> rfl
@[simp] theorem Flags.nz_t : (f.nz uf a).t = f.t := by
  unfold Flags.nz; split <;> rfl
@[simp] theorem Flags.shift_t (kind : ShiftKind) : (f.shift uf kind a b).t = f.t := by
  unfold Flags.shift; dsimp only; split <;> rfl
@[simp] theorem Flags.rotate_t (kind : RotateKind) : (f.rotate uf kind a b).t = f.t := by
  unfold Flags.rotate; dsimp only; split <;> rfl

end

/-! ### Permissions -/

/-- The pieces of special state: T, the control registers, sr1 to sr31, and the custom-engine pair. -/
structure Permits where
  /-- T -/
  t : Bool := false
  /-- cr0 to cr31 -/
  cr : Bool := false
  /-- sr1 to sr31 -/
  sr : Bool := false
  /-- CEL and CEH -/
  ce : Bool := false

/-- Which special state an instruction writes (R29, R31, R32, R38). -/
def permits : Instr → Permits
  | .bittst _ _ | .tCond _ | .rte => { t := true }
  | .mtsr _ n => { t := decide (n = 0#5), sr := decide (n ≠ 0#5) }
  | .mtcr _ _ | .syscall | .trap | .sdbbp | .breakC => { cr := true }
  | .mul _ _ | .mulu _ _ | .div _ _ | .divu _ _ | .mtcel _ | .mtceh _ | .mtcehl _ _ => { ce := true }
  | _ => {}

/-- `Edits p s t`: elementary updates permitted by `p` lead from `s` to `t`. -/
inductive Edits (p : Permits) (s : State) : State → Prop where
  /-- no update -/
  | refl : Edits p s s
  /-- a general register -/
  | setReg {u : State} (h : Edits p s u) (r : Reg) (v : Word) : Edits p s (u.setReg r v)
  /-- the flags; T only with the permission -/
  | setFlags {u : State} (h : Edits p s u) (f : Flags) (t : p.t = true ∨ f.t = u.flags.t) : Edits p s (u.setFlags f)
  /-- a system register; sr0 is the flags -/
  | setSr {u : State} (h : Edits p s u) (n : SpecialIdx) (v : Word) (t : n = 0#5 → p.t = true)
      (sr : n ≠ 0#5 → p.sr = true) : Edits p s (u.setSr n v)
  /-- a control register -/
  | setCr {u : State} (h : Edits p s u) (n : SpecialIdx) (v : Word) (cr : p.cr = true) : Edits p s (u.setCr n v)
  /-- the custom-engine pair -/
  | setCe {u : State} (h : Edits p s u) (lo hi : Word) (ce : p.ce = true) : Edits p s (u.setCe lo hi)
  /-- pc -/
  | jump {u : State} (h : Edits p s u) (a : Word) : Edits p s (u.jump a)
  /-- a read of memory -/
  | memRead {u : State} (h : Edits p s u) (a : Word) (w : Width) : Edits p s (u.memRead a w).2
  /-- a write of memory -/
  | memWrite {u : State} (h : Edits p s u) (a : Word) (w : Width) (v : Word) : Edits p s (u.memWrite a w v)

namespace Edits

variable {p : Permits} {s t u : State}

/-! ### The shared shapes are made of them -/

theorem advance (h : Edits p s u) (d : Word) : Edits p s (u.advance d) := h.jump (u.pc + d)
theorem link (h : Edits p s u) (v : Word) : Edits p s (u.link v) := h.setReg Config.linkReg v
theorem addInto (h : Edits p s u) (rd : Reg) (a b : Word) (cin uf : Bool) : Edits p s (u.addInto rd a b cin uf) :=
  (h.setFlags _ (.inr (Flags.add_t ..))).setReg rd _
theorem subInto (h : Edits p s u) (rd : Reg) (a b : Word) (bin uf : Bool) : Edits p s (u.subInto rd a b bin uf) :=
  (h.setFlags _ (.inr (Flags.sub_t ..))).setReg rd _
theorem compare (h : Edits p s u) (a b : Word) : Edits p s (u.compare a b) := h.setFlags _ (.inr (Flags.sub_t ..))
theorem nzInto (h : Edits p s u) (rd : Reg) (v : Word) (uf : Bool) : Edits p s (u.nzInto rd v uf) :=
  (h.setFlags _ (.inr (Flags.nz_t ..))).setReg rd _
theorem shiftInto (h : Edits p s u) (rd : Reg) (kind : ShiftKind) (a n : Word) (uf : Bool) :
    Edits p s (u.shiftInto rd kind a n uf) := (h.setFlags _ (.inr (Flags.shift_t ..))).setReg rd _
theorem rotateInto (h : Edits p s u) (rd : Reg) (kind : RotateKind) (a n : Word) (uf : Bool) :
    Edits p s (u.rotateInto rd kind a n uf) := (h.setFlags _ (.inr (Flags.rotate_t ..))).setReg rd _
theorem load (h : Edits p s u) (op : LoadOp) (rd : Reg) (ea : Word) : Edits p s (u.load op rd ea) :=
  (h.memRead ea op.width).setReg rd _
theorem store (h : Edits p s u) (op : StoreOp) (ea d : Word) : Edits p s (u.store op ea d) := h.memWrite ea op.width d
theorem loadPost (h : Edits p s u) (op : LoadOp) (rd ra : Reg) (off : Word) : Edits p s (u.loadPost op rd ra off) :=
  ((h.memRead _ op.width).setReg ra _).setReg rd _
theorem storePost (h : Edits p s u) (op : StoreOp) (rd ra : Reg) (off : Word) :
    Edits p s (u.storePost op rd ra off) := (h.memWrite _ op.width _).setReg ra _
theorem divideInto (h : Edits p s u) (pair : Option (Word × Word)) (ce : p.ce = true) :
    Edits p s (u.divideInto pair) := by
  cases pair with
  | none => exact h
  | some qr => exact h.setCe qr.1 qr.2 ce
theorem takeException (h : Edits p s u) (cause : BitVec 8) (cr : p.cr = true) : Edits p s (u.takeException cause) :=
  ((((h.setCr _ _ cr).setCr _ _ cr).setCr _ _ cr).setCr _ _ cr).jump _
theorem returnFromException (h : Edits p s u) (t : p.t = true) : Edits p s u.returnFromException :=
  (h.setFlags _ (.inl t)).jump _

/-! ### What they keep -/

/-- No update reaches the counters, run control or the segment table. -/
theorem sameRun (h : Edits p s t) : SameRun s t := by
  induction h with
  | refl => exact ⟨rfl, rfl, rfl, rfl, rfl, rfl, rfl, rfl, rfl⟩
  | setFlags _ _ _ ih => exact { ih with }
  | setCr _ _ _ _ ih => exact { ih with }
  | setCe _ _ _ _ ih => exact { ih with }
  | jump _ _ ih => exact { ih with }
  | setReg | setSr | memRead | memWrite =>
    rename_i ih
    obtain ⟨cycles, instructions, halted, faultCount, initialized, attached, paused, breakpoints, segments⟩ := ih
    constructor <;> simpa

/-- Memory changes by guest writes only. -/
theorem mem_induction (P : Memory → Prop) (write : ∀ (u : State) a w v, P u.mem → P (u.memWrite a w v).mem)
    (h : Edits p s t) (start : P s.mem) : P t.mem := by
  induction h with
  | refl => exact start
  | memWrite _ a w v ih => exact write _ a w v ih
  | setReg | setFlags | setSr | setCr | setCe | jump | memRead => simpa

theorem flags_t (h : Edits p s t) (kept : p.t = false) : t.flags.t = s.flags.t := by
  induction h with
  | refl => rfl
  | setFlags _ f t ih => exact (t.resolve_left (by simp [kept])).trans ih
  | setSr _ n v t _ ih =>
    have storage : n ≠ 0#5 := fun zero => by simpa [kept] using t zero
    simpa [State.setSr_flags, storage] using ih
  | setReg | setCr | setCe | jump | memRead | memWrite => simpa

theorem sameCr (h : Edits p s t) (kept : p.cr = false) : SameCr s t := by
  induction h with
  | refl => exact fun _ => rfl
  | setCr _ n v cr => simp [kept] at cr
  | setReg | setFlags | setSr | setCe | jump | memRead | memWrite =>
    rename_i ih
    exact fun n => (State.getCr_of_cr (by simp) n).trans (ih n)

theorem sameSr (h : Edits p s t) (kept : p.sr = false) : SameSr s t := by
  induction h with
  | refl => exact fun _ _ => rfl
  | setSr _ n v _ sr ih =>
    have view : n = 0#5 := by_contra fun storage => by simpa [kept] using sr storage
    intro m hm
    rw [State.getSr_setSr _ _ _ _ hm, if_neg (view ▸ hm)]
    exact ih m hm
  | setReg | setFlags | setCr | setCe | jump | memRead | memWrite =>
    rename_i ih
    intro m hm
    have same := ih m hm
    simp only [State.getSr, if_neg hm] at same ⊢
    simpa using same

theorem sameCe (h : Edits p s t) (kept : p.ce = false) : SameCe s t := by
  induction h with
  | refl => exact ⟨rfl, rfl⟩
  | setCe _ _ _ ce => simp [kept] at ce
  | setReg | setFlags | setSr | setCr | jump | memRead | memWrite =>
    rename_i ih
    exact ⟨by simpa using ih.1, by simpa using ih.2⟩

end Edits

end Sys2Proof.Machine
end

section
/-! PROOFS. Every instruction completes by the updates it is permitted, and the frames that follow (R46, R337). -/

namespace Sys2Proof.Machine

open Edits in
/-- The one case analysis over the instructions, by the shape of the meaning. -/
theorem exec_edits (i : Instr) (s : State) : ∃ t, exec i s = .next t ∧ Edits (permits i) s t := by
  cases i
  case nop | nopC => exact ⟨_, rfl, refl.advance _⟩
  case syscall | trap | sdbbp | breakC => exact ⟨_, rfl, refl.takeException _ rfl⟩
  case br | brC | j => exact ⟨_, rfl, refl.jump _⟩
  case brl | brlC | jl => exact ⟨_, rfl, (refl.link _).jump _⟩
  case rte => exact ⟨_, rfl, refl.returnFromException rfl⟩
  case add | addc | addi | addis | addiC => exact ⟨_, rfl, (refl.addInto ..).advance _⟩
  case sub | subc | neg => exact ⟨_, rfl, (refl.subInto ..).advance _⟩
  case cmp | cmpi | cmpis | cmpiC => exact ⟨_, rfl, (refl.compare ..).advance _⟩
  case and | or | not | xor | bitclr | bitset | bittgl | extsb | extsh | extzb | extzh | andi | andis | ori | oris | andiC
    | oriC | extsbC | extshC | extzbC | extzhC => exact ⟨_, rfl, (refl.nzInto ..).advance _⟩
  case bittst | tCond => exact ⟨_, rfl, (refl.setFlags _ (.inl rfl)).advance _⟩
  case sll | srl | sra | ror | rol | slli | srli | srai | rori | roli | slliC | srliC | sraiC | roriC | roliC =>
    exact ⟨_, rfl, (refl.shiftInto ..).advance _⟩
  case rorc | rolc | roric | rolic => exact ⟨_, rfl, (refl.rotateInto ..).advance _⟩
  case mul | mulu | mtcel | mtceh | mtcehl => exact ⟨_, rfl, (refl.setCe _ _ rfl).advance _⟩
  case div | divu => exact ⟨_, rfl, (refl.divideInto _ rfl).advance _⟩
  case mfcel | mfceh | mfcr | mfsr | ldi | ldis | ldiC | mvC => exact ⟨_, rfl, (refl.setReg ..).advance _⟩
  case mfcehl => exact ⟨_, rfl, ((refl.setReg ..).setReg ..).advance _⟩
  case mtcr => exact ⟨_, rfl, (refl.setCr _ _ rfl).advance _⟩
  case mtsr => exact ⟨_, rfl, (refl.setSr _ _ decide_eq_true decide_eq_true).advance _⟩
  case mvCond c rd ra =>
    rw [exec_mvCond]
    refine ⟨_, rfl, Edits.advance ?_ _⟩
    split
    · exact refl.setReg ..
    · exact refl
  case bCond c disp | bCondC c disp =>
    rcases Bool.eq_false_or_eq_true (s.flags.cond c) with taken | notTaken
    · exact ⟨_, if_pos taken, refl.jump _⟩
    · exact ⟨_, if_neg (by simp [notTaken]), refl.advance _⟩
  case bCondL c disp =>
    rcases Bool.eq_false_or_eq_true (s.flags.cond c) with taken | notTaken
    · exact ⟨_, if_pos taken, (refl.link _).jump _⟩
    · exact ⟨_, if_neg (by simp [notTaken]), refl.advance _⟩
  case lcb | lcw | lwRix | lhRix | lhuRix | lbRix | lbuRix | lw | lh | lhu | lb | lbu | lwC | lhC | lhuC | lbC | lbuC
    | lwpC => exact ⟨_, rfl, (refl.load ..).advance _⟩
  case scb | scw | swRix | shRix | sbRix | sw | sh | sb | swC | shC | sbC | swpC =>
    exact ⟨_, rfl, (refl.store ..).advance _⟩
  case lwPi | lhPi | lhuPi | lbPi | lbuPi | popC => exact ⟨_, rfl, (refl.loadPost ..).advance _⟩
  case swPi | shPi | sbPi => exact ⟨_, rfl, (refl.storePost ..).advance _⟩
  case pushC => exact ⟨_, rfl, ((refl.store ..).setReg ..).advance _⟩

variable {i : Instr} {s t : State}

theorem edits_of_exec (h : exec i s = .next t) : Edits (permits i) s t := by
  obtain ⟨u, done, edits⟩ := exec_edits i s
  cases done.symm.trans h
  exact edits

/-! ### The permissions name the instructions -/

theorem named_of_permits_t (allowed : (permits i).t = true) :
    (∃ ra k, i = .bittst ra k) ∨ (∃ c, i = .tCond c) ∨ (∃ rd, i = .mtsr rd 0#5) ∨ i = .rte := by
  cases i
  case bittst ra k => exact .inl ⟨ra, k, rfl⟩
  case tCond c => exact .inr (.inl ⟨c, rfl⟩)
  case mtsr rd n =>
    obtain rfl : n = 0#5 := of_decide_eq_true allowed
    exact .inr (.inr (.inl ⟨rd, rfl⟩))
  case rte => exact .inr (.inr (.inr rfl))
  all_goals cases allowed

theorem named_of_permits_cr (allowed : (permits i).cr = true) :
    (∃ rd n, i = .mtcr rd n) ∨ i ∈ [.syscall, .trap, .sdbbp, .breakC] := by
  cases i
  case mtcr rd n => exact .inl ⟨rd, n, rfl⟩
  case syscall | trap | sdbbp | breakC => exact .inr (by simp)
  all_goals cases allowed

theorem named_of_permits_sr (allowed : (permits i).sr = true) : ∃ rd n, i = .mtsr rd n ∧ n ≠ 0#5 := by
  cases i
  case mtsr rd n => exact ⟨rd, n, rfl, of_decide_eq_true allowed⟩
  all_goals cases allowed

theorem named_of_permits_ce (allowed : (permits i).ce = true) : ∃ ra rb, i ∈ [.mul ra rb, .mulu ra rb, .div ra rb,
    .divu ra rb, .mtcel ra, .mtceh ra, .mtcehl ra rb] := by
  cases i
  case mul ra rb | mulu ra rb | div ra rb | divu ra rb | mtcehl ra rb => exact ⟨ra, rb, by simp⟩
  case mtcel ra | mtceh ra => exact ⟨ra, ra, by simp⟩
  all_goals cases allowed

end Sys2Proof.Machine
end

section
/-! PROOFS. The statements of 10_state.md on what the instructions keep. -/

namespace Sys2Proof.Machine

/-- Settles O52: every instruction completes by elementary updates, and none of these reaches the run state. -/
theorem instructionsKeepRunState : Obligations.InstructionsKeepRunState := by
  intro i s
  obtain ⟨t, done, edits⟩ := exec_edits i s
  exact ⟨t, done, edits.sameRun⟩

/-- Settles O53: what changed was permitted, and the permissions name the instructions. -/
theorem onlyNamedInstructionsWriteSpecialState : Obligations.OnlyNamedInstructionsWriteSpecialState := by
  intro i s t done
  have edits := edits_of_exec done
  refine ⟨fun changed => named_of_permits_t ?_, fun changed => named_of_permits_cr ?_,
    fun changed => named_of_permits_sr ?_, fun changed => named_of_permits_ce ?_⟩
  · simpa using fun kept => changed (edits.flags_t kept)
  · simpa using fun kept => changed (edits.sameCr kept)
  · simpa using fun kept => changed (edits.sameSr kept)
  · simpa using fun kept => changed (edits.sameCe kept)

end Sys2Proof.Machine
end

section
/-! PROOFS. The invariant: what each update keeps of it (10_state.md R41, R44, R46, R357; 60_exceptions.md R351). -/

namespace Sys2Proof.Machine

variable {s t : State}

/-! ### One step -/

/-- The parts of the invariant that memory makes. -/
def MemoryOk (m : Memory) : Prop := m.wf = true ∧ ∀ cell ∈ m, Dense.holdsKey cell.1 = true

theorem State.Inv.memoryOk (inv : s.Inv) : MemoryOk s.mem := ⟨inv.mem_wf, inv.mem_dense⟩

theorem Edits.memoryOk {p : Permits} (edits : Edits p s t) (ok : MemoryOk s.mem) : MemoryOk t.mem :=
  edits.mem_induction MemoryOk (fun u a w v ok => ⟨u.memWrite_wf a w v ok.1, u.memWrite_holdsKey a w v ok.2⟩) ok

/-- A state with the run state and the segment table of one that has the invariant, and good memory. -/
theorem State.Inv.of_sameRun (inv : s.Inv) (run : SameRun s t) (mem : MemoryOk t.mem) : t.Inv where
  mem_wf := mem.1
  mem_dense := mem.2
  segments_wf := run.segments ▸ inv.segments_wf
  segments_bound := run.segments ▸ inv.segments_bound
  breakpoints_rising := run.breakpoints ▸ inv.breakpoints_rising
  fault_count_le := run.faultCount ▸ inv.fault_count_le
  halted_iff := by rw [run.halted, run.faultCount]; exact inv.halted_iff
  counters_eq := by rw [run.cycles, run.instructions]; exact inv.counters_eq

/-- The breaker has not fired yet, so one more fault stays within the limit, and reaching it halts the CPU. -/
theorem State.Inv.stepFault (inv : s.Inv) (running : s.halted = false) : s.stepFault.Inv := by
  have below : s.faultCount < Config.faultLimit + 1 := by
    refine lt_of_le_of_ne inv.fault_count_le fun fired => ?_
    simp [inv.halted_iff.2 fired] at running
  refine { inv with fault_count_le := ?_, halted_iff := ?_ }
  · simpa using below
  · simp only [State.stepFault_halted, State.stepFault_faultCount, running, Bool.false_or, decide_eq_true_eq]
    omega

theorem State.Inv.retire (inv : s.Inv) (running : s.halted = false) : s.retire.Inv := by
  refine { inv with fault_count_le := Nat.zero_le _, halted_iff := ?_, counters_eq := ?_ }
  · simp [running]
  · simp [inv.counters_eq]

/-! ### Host events -/

/-- The host's setters reach every register. -/
def Permits.all : Permits := ⟨true, true, true, true⟩

theorem insertRising_mem {k k' : Nat} {l : List Nat} (mem : k' ∈ insertRising k l) : k' = k ∨ k' ∈ l := by
  induction l with
  | nil => simpa [insertRising] using mem
  | cons head rest ih =>
    unfold insertRising at mem
    split_ifs at mem with lt eq
    · simpa using mem
    · simp only [List.mem_cons] at mem ⊢
      tauto
    · simp only [List.mem_cons] at mem ⊢
      tauto

theorem strictlyRising_cons (k : Nat) (l : List Nat) :
    strictlyRising (k :: l) = true ↔ (∀ k' ∈ l, k < k') ∧ strictlyRising l = true := by
  simp [strictlyRising]

theorem strictlyRising_insertRising (k : Nat) {l : List Nat} (rising : strictlyRising l = true) :
    strictlyRising (insertRising k l) = true := by
  induction l with
  | nil => rfl
  | cons head rest ih =>
    obtain ⟨above, rest_rising⟩ := (strictlyRising_cons head rest).1 rising
    unfold insertRising
    split_ifs with lt eq
    · refine (strictlyRising_cons _ _).2 ⟨fun k' mem => ?_, rising⟩
      rcases List.mem_cons.1 mem with rfl | mem
      · exact lt
      · exact lt.trans (above k' mem)
    · exact eq ▸ rising
    · refine (strictlyRising_cons _ _).2 ⟨fun k' mem => ?_, ih rest_rising⟩
      rcases insertRising_mem mem with rfl | mem
      · omega
      · exact above k' mem

theorem strictlyRising_filter (p : Nat → Bool) {l : List Nat} (rising : strictlyRising l = true) :
    strictlyRising (l.filter p) = true := by
  induction l with
  | nil => rfl
  | cons head rest ih =>
    obtain ⟨above, rest_rising⟩ := (strictlyRising_cons head rest).1 rising
    rw [List.filter_cons]
    split_ifs
    · exact (strictlyRising_cons _ _).2 ⟨fun k' mem => above k' (List.mem_of_mem_filter mem), ih rest_rising⟩
    · exact ih rest_rising

theorem State.Inv.setIntc (inv : s.Inv) (c : Intc) : (s.setIntc c).Inv := { inv with }
theorem State.Inv.takeException (inv : s.Inv) (cause : BitVec 8) : (s.takeException cause).Inv := { inv with }

theorem State.Inv.trigger (inv : s.Inv) (irq : Int) : (s.trigger irq).Inv := by
  unfold State.trigger State.countBlocked
  dsimp only
  split_ifs
  · exact (inv.setIntc _).takeException _
  · exact (inv.setIntc _).setIntc _
  · exact inv.setIntc _

theorem State.Inv.loadBytes (inv : s.Inv) {d : Dense} {off : Nat} {bytes : List Byte}
    (fits : off + bytes.length ≤ d.size) : (s.loadBytes d off bytes).Inv :=
  { inv with
    mem_wf := s.loadBytes_wf d off bytes inv.mem_wf
    mem_dense := Memory.holdsKey_writeBytes inv.mem_dense d off bytes fits }

theorem State.Inv.bindSegment (inv : s.Inv) (seg : BitVec 8) (r : Region) :
    ({ s with segments := s.segments.set seg.toNat r } : State).Inv := by
  refine { inv with segments_wf := Cells.wf_set _ _ _ inv.segments_wf, segments_bound := fun entry mem => ?_ }
  rcases Cells.mem_set _ mem with rfl | mem
  · exact seg.isLt
  · exact inv.segments_bound entry mem

/-- The constructed CPU's own state is that of reset; the MIU's parts are kept. -/
theorem State.Inv.constructCpu (inv : s.Inv) : s.constructCpu.Inv :=
  { inv with
    breakpoints_rising := rfl
    fault_count_le := by simp
    halted_iff := by simp
    counters_eq := rfl }

end Sys2Proof.Machine
end

section
/-! PROOFS. The statements on the invariant and on FLASH. -/

namespace Sys2Proof.Machine

/-- Settles O55, field by field. -/
theorem invariantAtReset : Obligations.InvariantAtReset where
  mem_wf := rfl
  mem_dense := by simp [State.reset, State.constructed]
  segments_wf := by decide
  segments_bound := by decide
  breakpoints_rising := rfl
  fault_count_le := by decide
  halted_iff := by decide
  counters_eq := rfl

/-- Settles O56, by what a step can do: the retirement is of an instruction's edits, which keep the run state and good
memory. -/
theorem stepKeepsInvariant : Obligations.StepKeepsInvariant := by
  intro s t inv next
  obtain ⟨-, ⟨rfl, -⟩ | ⟨running, -, rfl | ⟨-, rfl⟩ | ⟨-, rfl⟩ | ⟨i, u, -, done, rfl⟩⟩⟩ := step_cases next
  · exact inv
  · exact inv.stepFault running
  · exact inv.takeException _
  · exact { inv with }
  · have edits := edits_of_exec done
    exact (inv.of_sameRun edits.sameRun (edits.memoryOk inv.memoryOk)).retire (edits.sameRun.halted.trans running)

/-- Settles O57, event by event. -/
theorem hostEventsKeepInvariant : Obligations.HostEventsKeepInvariant := by
  intro e s t inv next
  have edits {p : Permits} {u : State} (h : Edits p s u) : u.Inv := inv.of_sameRun h.sameRun (h.memoryOk inv.memoryOk)
  cases e
  case trigger irq => cases next; exact inv.trigger irq
  case enableIrq | disableIrq | connectCpu | resetIntc => cases next; exact inv.setIntc _
  case constructCpu => cases next; exact inv.constructCpu
  case initializeCpu withInterface =>
    cases withInterface
    · cases next
    · cases next; exact { inv with }
  case attachMiu | detachMiu | resumePaused => cases next; exact { inv with }
  case setBreakpoint a =>
    cases next
    exact { inv with breakpoints_rising := strictlyRising_insertRising _ inv.breakpoints_rising }
  case clearBreakpoint a =>
    cases next
    exact { inv with breakpoints_rising := strictlyRising_filter _ inv.breakpoints_rising }
  case resumeHalted => cases next; exact { inv with fault_count_le := by simp, halted_iff := by simp }
  case dmaWrite a w v => cases next; exact edits (p := .all) (Edits.refl.memWrite a w v)
  case loadImage d off bytes =>
    simp only [hostEvent] at next
    split_ifs at next with fits
    cases next
    exact inv.loadBytes fits
  case setRegion seg r =>
    obtain ⟨-, rfl⟩ := State.setRegion_next next
    exact inv.bindSegment seg r
  case setGpr r v => cases next; exact edits (p := .all) (Edits.refl.setReg r v)
  case setSysReg n v => cases next; exact edits (p := .all) (Edits.refl.setSr n v (fun _ => rfl) (fun _ => rfl))
  case setCtlReg n v => cases next; exact { inv with }
  case setPc | setCel | setCeh | setFlags => cases next; exact { inv with }

/-- Settles O54: of a step only an instruction's guest writes reach memory, and they drop FLASH. -/
theorem stepNeverChangesFlash : Obligations.StepNeverChangesFlash := by
  intro s t next off inside
  obtain ⟨-, ⟨rfl, -⟩ | ⟨-, -, rfl | ⟨-, rfl⟩ | ⟨-, rfl⟩ | ⟨i, u, -, done, rfl⟩⟩⟩ := step_cases next
  · rfl
  · rw [State.stepFault_mem]
  · rw [State.illegalFetch_eq, State.takeException_mem]
  · rfl
  · rw [State.retire_mem]
    exact (edits_of_exec done).mem_induction
      (fun m => m.get (Dense.flash.home + off) = s.mem.get (Dense.flash.home + off))
      (fun u a w v kept => (u.memWrite_flash a w v inside).trans kept) rfl

end Sys2Proof.Machine
end

section
/-! PROOFS. The instruction cycle: what a call returns, and the fault breaker (30_encoding.md R100, 60_exceptions.md R336,
R350, R351). -/

namespace Sys2Proof.Machine

variable {s : State}

/-! ### What a call returns -/

theorem stepReturn_of_not_initialized (h : s.initialized = false) : s.stepReturn = .notInitialized := by
  simp [State.stepReturn, h]

theorem stepReturn_of_idle (h : s.initialized = true) (idle : s.halted = true ∨ s.paused = true) :
    s.stepReturn = .returnsFalse := by
  rcases idle with idle | idle <;> simp [State.stepReturn, h, idle]

theorem stepReturn_of_detached (h : s.initialized = true) (detached : s.miuAttached = false) :
    s.stepReturn = .returnsFalse := by
  simp [State.stepReturn, h, detached]

theorem stepReturn_of_not_fetchable (h : s.running = true) (unfetchable : s.fetchable s.pc = false) :
    s.stepReturn = .returnsFalse := by
  simp [State.stepReturn, (s.running_iff.1 h).1, unfetchable]

theorem stepReturn_of_breakpoint (h : s.running = true) (at_pc : s.atBreakpoint = true) :
    s.stepReturn = .returnsFalse := by
  simp [State.stepReturn, (s.running_iff.1 h).1, at_pc]

theorem stepReturn_of_reserved (h : s.running = true) {e : Reserved}
    (reserved : decode (s.memRead s.pc .word).1 = .error e) : s.stepReturn = .returnsFalse := by
  unfold State.stepReturn
  rw [State.decode_fetchBytes, reserved]
  simp [(s.running_iff.1 h).1]

/-! ### Fetchable addresses -/

/-- Outside the dense regions and within three bytes of their end, pc is not fetchable (R101, R336). -/
theorem not_fetchable_of_region {pc : Word} (outside : s.region pc = .sink ∨ s.region pc = .mmio ∨ s.region pc = .cdrom
    ∨ ∃ d, s.region pc = .dense d ∧ d.size < offsetOf pc + 4) : s.fetchable pc = false := by
  unfold State.fetchable
  rcases outside with region | region | region | ⟨d, region, past⟩ <;> rw [region]
  simpa using past

/-! ### The breaker -/

/-- Every step of `s` is a StepFault: no interface is attached, or the word at a fetchable pc without a breakpoint is
reserved. -/
def State.Faulting (s : State) : Prop :=
  s.miuAttached = false
    ∨ (s.fetchable s.pc = true ∧ s.atBreakpoint = false ∧ ∃ e, decode (s.memRead s.pc .word).1 = .error e)

theorem step_of_faulting (h : s.initialized = true) (h2 : s.halted = false) (h3 : s.paused = false)
    (faulting : s.Faulting) : step s = .next s.stepFault := by
  cases attached : s.miuAttached
  · exact step_of_detached h h2 h3 attached
  · obtain ⟨fetchable, noBreak, e, reserved⟩ := faulting.resolve_left (by simp [attached])
    exact step_of_reserved (s.running_iff.2 ⟨h, h2, h3, attached⟩) fetchable noBreak reserved

/-- `s` after `k` faults from fault_count 0. -/
def State.afterFaults (s : State) (k : Nat) : State := { s with faultCount := min k 101, halted := decide (101 ≤ k) }

/-- The fetch does not see the breaker. -/
theorem State.Faulting.afterFaults (faulting : s.Faulting) (k : Nat) : (s.afterFaults k).Faulting := by
  have fetched : ((s.afterFaults k).memRead s.pc .word).1 = (s.memRead s.pc .word).1 :=
    State.memRead_congr (s := s) (t := s.afterFaults k) rfl rfl rfl rfl _ _
  rcases faulting with detached | ⟨fetchable, noBreak, e, reserved⟩
  · exact .inl detached
  · exact .inr ⟨fetchable, noBreak, e, fetched ▸ reserved⟩

theorem step_afterFaults (h : s.initialized = true) (h3 : s.paused = false) (faulting : s.Faulting) (k : Nat) :
    step (s.afterFaults k) = .next (s.afterFaults (k + 1)) := by
  by_cases fired : 101 ≤ k
  · rw [step_of_idle (s := s.afterFaults k) h (.inl (decide_eq_true fired))]
    simp [State.afterFaults, fired, Nat.le_succ_of_le fired]
  · have live : (s.afterFaults k).halted = false := decide_eq_false fired
    rw [step_of_faulting (s := s.afterFaults k) h live h3 (faulting.afterFaults k), State.stepFault_eq live]
    have low : min k 101 = k := by omega
    have next : min (k + 1) 101 = k + 1 := by omega
    have limit : (100 < k + 1) = (101 ≤ k + 1) := rfl
    simp only [State.afterFaults, low, next, limit]

theorem runEvents_steps_afterFaults (h : s.initialized = true) (h3 : s.paused = false) (faulting : s.Faulting)
    (k : Nat) :
    ∀ n, runEvents (List.replicate k .step) (s.afterFaults n) = .next (s.afterFaults (n + k)) := by
  induction k with
  | zero => exact fun n => rfl
  | succ k ih =>
    intro n
    rw [List.replicate_succ, runEvents, Event.apply, step_afterFaults h h3 faulting]
    exact (ih (n + 1)).trans (by rw [Nat.add_right_comm, Nat.add_assoc])

end Sys2Proof.Machine
end

section
/-! PROOFS. The statements of 30_encoding.md section 1 and 60_exceptions.md section 3 on the cycle. -/

namespace Sys2Proof.Machine

/-- Settles O46: what a word decodes to fits its form, and every instruction completes. -/
theorem stepRunsTheDecodedInstruction : Obligations.StepRunsTheDecodedInstruction := by
  intro s i running fetchable noBreak decoded
  obtain ⟨t, done, -⟩ := exec_edits i s
  exact ⟨(decode_fits decoded).2, stepReturn_of_decoded running fetchable noBreak decoded, t, done,
    step_of_decoded running fetchable noBreak decoded done⟩

/-- Settles O47, one item of R100 at a time. -/
theorem stepGuards : Obligations.StepGuards := by
  intro s
  refine ⟨fun off => ⟨step_of_not_initialized off, stepReturn_of_not_initialized off⟩,
    fun on idle => ⟨step_of_idle on idle, stepReturn_of_idle on idle⟩, fun on live unpaused detached => ?_,
    fun running fetchable listed => ?_⟩
  · rw [step_of_detached on live unpaused detached, State.stepFault_eq live]
    exact ⟨rfl, stepReturn_of_detached on detached⟩
  · have at_pc := s.atBreakpoint_iff.2 listed
    exact ⟨step_of_breakpoint running fetchable at_pc, stepReturn_of_breakpoint running at_pc⟩

/-- Settles O49: the step is a StepFault of a CPU that is not halted. -/
theorem reservedEncodingIsStepFault : Obligations.ReservedEncodingIsStepFault := by
  intro s e running fetchable noBreak reserved
  rw [step_of_reserved running fetchable noBreak reserved, State.stepFault_eq (s.running_iff.1 running).2.1]
  exact ⟨rfl, stepReturn_of_reserved running reserved⟩

/-- Settles O50, by induction on the number of steps. -/
theorem breakerHaltsAtTheHundredAndFirst : Obligations.BreakerHaltsAtTheHundredAndFirst := by
  intro s k initialized halted unpaused count faulting
  have start : s.afterFaults 0 = s := by
    cases s
    cases count
    cases halted
    rfl
  have run := runEvents_steps_afterFaults initialized unpaused faulting k 0
  rw [start, Nat.zero_add] at run
  exact run

/-- Settles O51: each item of R100 after the first answers a next state that keeps `initialized` and the segments. -/
theorem initializedMachineNeverStops : Obligations.InitializedMachineNeverStops := by
  intro s initialized
  by_cases idle : s.halted = true ∨ s.paused = true
  · exact ⟨s, step_of_idle initialized idle, initialized, rfl⟩
  obtain ⟨live, unpaused⟩ : s.halted = false ∧ s.paused = false := by simpa using idle
  cases attached : s.miuAttached
  · exact ⟨_, step_of_detached initialized live unpaused attached, initialized, rfl⟩
  have running := s.running_iff.2 ⟨initialized, live, unpaused, attached⟩
  cases fetchable : s.fetchable s.pc
  · exact ⟨_, step_of_not_fetchable running fetchable, (s.takeException_initialized _).trans initialized,
      s.takeException_segments _⟩
  cases noBreak : s.atBreakpoint
  · cases decoded : decode (s.memRead s.pc .word).1 with
    | error e => exact ⟨_, step_of_reserved running fetchable noBreak decoded, initialized, rfl⟩
    | ok i =>
      obtain ⟨t, done, edits⟩ := exec_edits i s
      exact ⟨_, step_of_decoded running fetchable noBreak decoded done, edits.sameRun.initialized.trans initialized,
        edits.sameRun.segments⟩
  · exact ⟨_, step_of_breakpoint running fetchable noBreak, initialized, rfl⟩

end Sys2Proof.Machine
end

section
/-! PROOFS. Taking exceptions and returning from them, and the interrupt controller's trigger (60_exceptions.md R330 to
R340). -/

namespace Sys2Proof.Machine

variable {s t : State} {cause : BitVec 8}

/-! ### What the flags leave unchanged -/

/-- A system register other than sr0 is storage of its own. -/
theorem State.getSr_setFlags (t : State) (f : Flags) {n : SpecialIdx} (hn : n ≠ 0#5) :
    (t.setFlags f).getSr n = t.getSr n := by
  simp [State.getSr, hn]

theorem OnlyCore.setFlags (h : OnlyCore s t) (f : Flags) : OnlyCore s (t.setFlags f) where
  sr n hn := (t.getSr_setFlags f hn).trans (h.sr n hn)
  cr := h.cr
  ce := h.ce
  run := { h.run with }
  memory := { h.memory with }
  draws := h.draws

/-! ### The entry -/

theorem SameMemory.of_eq (mem : t.mem = s.mem) (intc : t.intc = s.intc) (segments : t.segments = s.segments) :
    SameMemory s t := ⟨mem, intc, State.peekByte_congr mem intc segments⟩

/-- R35, D17: the cause's low six bits go to bits 23 to 18. -/
theorem withCause_getLsbD (cr2 : Word) (cause : BitVec 8) {i : Nat} (hi : i < 32) :
    (withCause cr2 cause).getLsbD i = if 18 ≤ i ∧ i < 24 then cause.getLsbD (i - 18) else cr2.getLsbD i := by
  unfold withCause
  interval_cases i <;> simp

theorem and_not_one_getLsbD (w : Word) {i : Nat} (hi : i < 32) :
    (w &&& ~~~1#32).getLsbD i = (decide (i ≠ 0) && w.getLsbD i) := by
  rw [BitVec.getLsbD_and, BitVec.getLsbD_not, BitVec.getLsbD_one, Bool.and_comm]
  simp [hi]

/-- R36, D18: the whole cause indexes the table of words at cr3. -/
theorem vectorOf_eq (base : Word) (cause : BitVec 8) :
    vectorOf base cause = BitVec.ofNat 32 (base.toNat + 4 * cause.toNat) := by
  apply BitVec.eq_of_toNat_eq
  simp only [vectorOf, BitVec.toNat_add, BitVec.toNat_mul, BitVec.toNat_setWidth, BitVec.toNat_ofNat]
  omega

theorem entered_takeException (s : State) (cause : BitVec 8) : Entered s (s.takeException cause) cause where
  saved_flags := by simp [State.getCr_takeException]
  saved_cause i hi := by simpa [State.getCr_takeException] using withCause_getLsbD (s.getCr 2#5) cause hi
  saved_pc := by simp [State.getCr_takeException]
  enable_cleared i hi := by
    rw [State.getCr_takeException, if_pos rfl]
    exact and_not_one_getLsbD _ hi
  other_cr n n0 n1 n2 n5 := by simp [State.getCr_takeException, n0, n1, n2, n5]
  vector := (s.takeException_pc cause).trans (vectorOf_eq _ _)
  flags := rfl
  regs _ := rfl
  sr _ _ := rfl
  ce := ⟨rfl, rfl⟩
  run := ⟨rfl, rfl, rfl, rfl, rfl, rfl, rfl, rfl, rfl⟩
  mem := rfl
  draws := rfl

theorem completes_takeException {r : Result} (taken : r = .next (s.takeException cause)) :
    Completes r fun t => Entered s t cause ∧ t.intc = s.intc ∧ SameMemory s t :=
  ⟨_, taken, entered_takeException s cause, rfl, .of_eq rfl rfl rfl⟩

/-- What an entry saves does not look at the INTC. -/
theorem Entered.of_setIntc {c : Intc} (entered : Entered (s.setIntc c) t cause) : Entered s t cause :=
  { entered with run := { entered.run with } }

/-! ### The trigger -/

theorem State.trigger_outside {irq : Int} (outside : ¬ (0 ≤ irq ∧ irq ≤ 31)) : s.trigger irq = s.countBlocked := by
  have no_line : ¬ (0 ≤ irq ∧ irq < (Config.numIrq : Int)) := fun line => outside ⟨line.1, Int.le_of_lt_add_one line.2⟩
  rw [State.trigger, if_neg no_line]

/-- The state with line `i` pending. -/
def State.pend (s : State) (i : Nat) : State := s.setIntc { s.intc with status := withBitSet s.intc.status i }

theorem State.trigger_line {i : Nat} (line : i < 32) :
    s.trigger i = if s.intc.mask.getLsbD i = true ∧ s.intc.cpuConnected = true then
      (s.pend i).takeException (BitVec.ofNat 8 i) else (s.pend i).countBlocked := by
  have inside : (0 : Int) ≤ i ∧ (i : Int) < (Config.numIrq : Int) := ⟨Int.natCast_nonneg i, Int.ofNat_lt.2 line⟩
  rw [State.trigger, if_pos inside]
  simp only [Int.toNat_natCast, Bool.and_eq_true, State.pend]

theorem withBitSet_getLsbD (w : Word) (i : Nat) {k : Nat} (hk : k < 32) :
    (withBitSet w i).getLsbD k = (decide (k = i) || w.getLsbD k) := by
  simp only [withBitSet, BitVec.getLsbD_or, BitVec.getLsbD_shiftLeft, BitVec.getLsbD_one, hk, decide_true, Bool.true_and]
  by_cases same : k = i
  · simp [same]
  · have off : (!decide (k < i) && decide (k - i = 0)) = false := by
      simp only [Bool.and_eq_false_imp, Bool.not_eq_true', decide_eq_false_iff_not]
      omega
    simp_all

theorem withBitClear_getLsbD (w : Word) (i : Nat) {k : Nat} (hk : k < 32) :
    (withBitClear w i).getLsbD k = (decide (k ≠ i) && w.getLsbD k) := by
  have one_bit : (1#32 <<< i).getLsbD k = decide (k = i) := by
    simpa [withBitSet] using withBitSet_getLsbD 0#32 i hk
  rw [withBitClear, BitVec.getLsbD_and, BitVec.getLsbD_not, one_bit, Bool.and_comm]
  simp [hk]

end Sys2Proof.Machine
end

section
/-! PROOFS. The statements of 60_exceptions.md on entries, returns and interrupts. -/

namespace Sys2Proof.Machine

/-- Settles O29: each is the entry of its cause. -/
theorem softwareExceptionsEnter : Obligations.SoftwareExceptionsEnter := by
  intro s
  refine ⟨?_, ?_, ?_, ?_⟩
  · exact completes_takeException (exec_syscall s)
  · exact completes_takeException (exec_trap s)
  · exact completes_takeException (exec_sdbbp s)
  · exact completes_takeException (exec_breakC s)

/-- Settles O30: `rte` writes the flags and pc only. -/
theorem rteRestoresFlagsAndPc : Obligations.RteRestoresFlagsAndPc :=
  fun s => ⟨s.returnFromException, exec_rte s, s.returnFromException_flags, s.returnFromException_pc, fun _ => rfl,
    ((OnlyCore.refl s).setFlags _).jump _⟩

/-- Settles O31: cr1 and cr5 hold what the entry saved. -/
theorem exceptionThenRteRestores : Obligations.ExceptionThenRteRestores := by
  intro s cause
  have entered := entered_takeException s cause
  refine ⟨_, exec_rte _, entered.saved_pc, ?_, fun _ => rfl, ⟨rfl, rfl⟩, rfl⟩
  rw [State.returnFromException_flags, entered.saved_flags, Flags.unpack_pack]

/-- Settles O32: outside the lines, inside with the entry, inside without it. -/
theorem triggerDelivers : Obligations.TriggerDelivers := by
  intro s irq
  refine ⟨_, rfl, ?_⟩
  split_ifs with line delivered
  · obtain ⟨i, rfl⟩ : ∃ i : Nat, irq = i := ⟨irq.toNat, by omega⟩
    rw [Int.toNat_natCast] at delivered
    rw [State.trigger_line (by omega), if_pos delivered]
    refine ⟨fun k hk => ?_, rfl, rfl, rfl, ?_, rfl⟩
    · exact (withBitSet_getLsbD _ _ hk).trans (by simp)
    · exact (entered_takeException (s.pend i) (BitVec.ofNat 8 i)).of_setIntc
  · obtain ⟨i, rfl⟩ : ∃ i : Nat, irq = i := ⟨irq.toNat, by omega⟩
    rw [Int.toNat_natCast] at delivered
    rw [State.trigger_line (by omega), if_neg delivered]
    refine ⟨fun k hk => ?_, rfl, rfl, rfl, rfl, rfl⟩
    exact (withBitSet_getLsbD _ _ hk).trans (by simp)
  · rw [State.trigger_outside line]
    rfl

/-- Settles O33: the first entry leaves mask and connection, so the second is taken too and saves the first's vector. -/
theorem nestedEntryClobbers : Obligations.NestedEntryClobbers := by
  intro s i j maskI maskJ connected
  have line (k : BitVec 5) : k.toNat < 32 := k.isLt
  have cause (k : BitVec 5) : (BitVec.ofNat 8 k.toNat).toNat = k.toNat :=
    Nat.mod_eq_of_lt (lt_trans (line k) (by decide))
  have first : s.trigger i.toNat = (s.pend i.toNat).takeException (BitVec.ofNat 8 i.toNat) := by
    rw [State.trigger_line (line i), if_pos ⟨maskI, connected⟩]
  set u := s.trigger i.toNat with hu
  have second : u.trigger j.toNat = (u.pend j.toNat).takeException (BitVec.ofNat 8 j.toNat) := by
    rw [State.trigger_line (line j), if_pos]
    rw [first]
    exact ⟨maskJ, connected⟩
  have entered1 : Entered s u (BitVec.ofNat 8 i.toNat) := by
    rw [first]
    exact (entered_takeException _ _).of_setIntc
  have entered2 : Entered u (u.trigger j.toNat) (BitVec.ofNat 8 j.toNat) := by
    rw [second]
    exact (entered_takeException _ _).of_setIntc
  refine ⟨u.trigger j.toNat, rfl, ?_, ?_, ?_, fun k hk => ?_⟩
  · rw [entered2.saved_pc, entered1.vector, cause]
  · rw [entered2.vector, entered1.other_cr 3#5 (by decide) (by decide) (by decide) (by decide), cause]
  · rw [entered2.saved_flags, entered1.flags]
  · have bit := entered2.saved_cause (18 + k) (by omega)
    rw [if_pos ⟨by omega, by omega⟩, Nat.add_sub_cancel_left, BitVec.getLsbD_ofNat] at bit
    simpa [show k < 8 by omega] using bit

/-- Settles O48: the step is the entry of the cause 0xFF at the pc. -/
theorem illegalFetchEnters : Obligations.IllegalFetchEnters := by
  intro s running outside
  have unfetchable := not_fetchable_of_region outside
  exact ⟨_, step_of_not_fetchable running unfetchable, entered_takeException s 0xFF#8,
    s.takeException_intc _, stepReturn_of_not_fetchable running unfetchable⟩

/-- Settles O60: each call writes the one bit of INT_MASK. -/
theorem irqEnableDisable : Obligations.IrqEnableDisable :=
  fun s i => ⟨⟨_, rfl, fun _ hk => withBitSet_getLsbD s.intc.mask i.toNat hk, rfl⟩,
    ⟨_, rfl, fun _ hk => withBitClear_getLsbD s.intc.mask i.toNat hk, rfl⟩⟩

end Sys2Proof.Machine
end

section
/-! PROOFS. The whole effects of the register-writing and flag-writing shapes, and the integer reading of the add and
subtract primitives (40_alu_primitives.md R142, R143, R160, R161). -/

namespace Sys2Proof.Machine

variable {s t : State}

/-! ### The shapes' effects -/

theorem OnlyCore.advance (h : OnlyCore s t) (d : Word) : OnlyCore s (t.advance d) := h.jump (t.pc + d)

theorem aluEffect_setFlags_setReg (s : State) (f : Flags) (rd : Reg) (v d : Word) :
    AluEffect (.next (((s.setFlags f).setReg rd v).advance d)) s rd v f d :=
  ⟨_, rfl, fun q => State.getReg_setReg _ rd q v, State.setReg_flags _ rd v, by simp,
    (((OnlyCore.refl s).setFlags f).setReg rd v).advance d⟩

theorem aluEffect_setReg (s : State) (rd : Reg) (v d : Word) :
    AluEffect (.next ((s.setReg rd v).advance d)) s rd v s.flags d :=
  ⟨_, rfl, fun q => s.getReg_setReg rd q v, s.setReg_flags rd v, by simp, ((OnlyCore.refl s).setReg rd v).advance d⟩

theorem flagEffect_setFlags (s : State) (f : Flags) (d : Word) : FlagEffect (.next ((s.setFlags f).advance d)) s f d :=
  ⟨_, rfl, fun _ => rfl, rfl, rfl, ((OnlyCore.refl s).setFlags f).advance d⟩

/-! ### The operands -/

theorem signExtend_eq_signedWord {n : Nat} (imm : BitVec n) : imm.signExtend 32 = signedWord imm := rfl

theorem setWidth_eq_ofNat {n : Nat} (imm : BitVec n) : imm.setWidth 32 = BitVec.ofNat 32 imm.toNat := by
  apply BitVec.eq_of_toNat_eq
  simp

theorem upperImm_eq (imm : BitVec 16) : upperImm imm = BitVec.ofNat 32 (imm.toNat * 2 ^ 16) := by
  apply BitVec.eq_of_toNat_eq
  simp [upperImm, Nat.shiftLeft_eq]

/-! ### The sign of a word -/

theorem getLsbD_31 (x : Word) : x.getLsbD 31 = decide (2 ^ 31 ≤ x.toNat) := BitVec.msb_eq_decide x

theorem toInt_eq_toNat_sub (x : Word) : x.toInt = x.toNat - (if 2 ^ 31 ≤ x.toNat then 2 ^ 32 else 0 : Int) := by
  rw [BitVec.toInt_eq_toNat_cond]
  split_ifs <;> omega

/-- V of an addition: the operands agree in sign and the result does not (R142). -/
theorem add_overflow (a b : Word) (cin : Bool) :
    (~~~(a ^^^ b) &&& (a ^^^ addResult a b cin)).getLsbD 31 = outOfRange (a.toInt + b.toInt + cin.toNat) := by
  have carry : cin.toNat ≤ 1 := Bool.toNat_le cin
  have ha := a.isLt
  have hb := b.isLt
  have res : (addResult a b cin).toNat = (a.toNat + b.toNat + cin.toNat) % 2 ^ 32 := BitVec.toNat_ofNat ..
  rw [BitVec.getLsbD_and, BitVec.getLsbD_not, BitVec.getLsbD_xor, BitVec.getLsbD_xor]
  simp only [getLsbD_31, toInt_eq_toNat_sub, outOfRange]
  generalize (addResult a b cin).toNat = r at res
  rw [Bool.eq_iff_iff]
  by_cases na : 2 ^ 31 ≤ a.toNat <;> by_cases nb : 2 ^ 31 ≤ b.toNat <;> simp <;> omega

/-- V of a subtraction: the operands differ in sign and the result has the sign of the second (R143). -/
theorem sub_overflow (a b : Word) (bin : Bool) :
    ((a ^^^ b) &&& ~~~(subResult a b bin ^^^ b)).getLsbD 31 = outOfRange (a.toInt - b.toInt - bin.toNat) := by
  have borrow : bin.toNat ≤ 1 := Bool.toNat_le bin
  have ha := a.isLt
  have hb := b.isLt
  have res : ((subResult a b bin).toNat : Int) = ((a.toNat : Int) - b.toNat - bin.toNat) % 2 ^ 32 := by
    rw [subResult, BitVec.toNat_ofInt]
    omega
  rw [BitVec.getLsbD_and, BitVec.getLsbD_not, BitVec.getLsbD_xor, BitVec.getLsbD_xor]
  simp only [getLsbD_31, toInt_eq_toNat_sub, outOfRange]
  generalize (subResult a b bin).toNat = r at res
  rw [Bool.eq_iff_iff]
  by_cases na : 2 ^ 31 ≤ a.toNat <;> by_cases nb : 2 ^ 31 ≤ b.toNat <;> simp <;> omega

theorem Flags.add_eq_sumFlags (f : Flags) (uf : Bool) (a b : Word) (cin : Bool) :
    f.add uf a b cin = sumFlags f uf a b cin := by
  unfold Flags.add sumFlags
  dsimp only
  rw [add_overflow]
  rfl

theorem Flags.sub_eq_differenceFlags (f : Flags) (uf : Bool) (a b : Word) (bin : Bool) :
    f.sub uf a b bin = differenceFlags f uf a b bin := by
  unfold Flags.sub differenceFlags
  dsimp only
  rw [sub_overflow]
  rfl

theorem aluEffect_addInto (s : State) (rd : Reg) (a b : Word) (cin uf : Bool) (d : Word) :
    AluEffect (.next ((s.addInto rd a b cin uf).advance d)) s rd (BitVec.ofNat 32 (a.toNat + b.toNat + cin.toNat))
      (sumFlags s.flags uf a b cin) d :=
  Flags.add_eq_sumFlags .. ▸ aluEffect_setFlags_setReg ..

theorem aluEffect_subInto (s : State) (rd : Reg) (a b : Word) (bin uf : Bool) (d : Word) :
    AluEffect (.next ((s.subInto rd a b bin uf).advance d)) s rd
      (BitVec.ofInt 32 ((a.toNat : Int) - b.toNat - bin.toNat)) (differenceFlags s.flags uf a b bin) d :=
  Flags.sub_eq_differenceFlags .. ▸ aluEffect_setFlags_setReg ..

theorem flagEffect_compare (s : State) (a b d : Word) :
    FlagEffect (.next ((s.compare a b).advance d)) s (differenceFlags s.flags true a b false) d :=
  Flags.sub_eq_differenceFlags .. ▸ flagEffect_setFlags ..

/-! ### The order a compare leaves -/

theorem State.compare_flags (s : State) (a b : Word) :
    (s.compare a b).flags = differenceFlags s.flags true a b false := by
  rw [State.compare, State.setFlags_flags, Flags.sub_eq_differenceFlags]

section
variable (f : Flags) (a b : Word)

/-- Z: the difference is 0 exactly when the words are equal. -/
theorem differenceFlags_z : (differenceFlags f true a b false).z = decide (a = b) := by
  have ha := a.isLt
  have hb := b.isLt
  simp only [differenceFlags, if_true, Bool.toNat_false, Nat.cast_zero, Int.sub_zero]
  rw [Bool.eq_iff_iff, beq_iff_eq, decide_eq_true_eq, ← BitVec.toNat_inj, ← BitVec.toNat_inj, BitVec.toNat_ofInt,
    BitVec.toNat_ofNat]
  omega

/-- C: no borrow. -/
theorem differenceFlags_c : (differenceFlags f true a b false).c = decide (b.toNat ≤ a.toNat) := by
  simp [differenceFlags]

/-- N and V together: they differ exactly when the first word is the smaller, as signed integers. -/
theorem differenceFlags_n_bne_v :
    ((differenceFlags f true a b false).n != (differenceFlags f true a b false).v) = decide (a.toInt < b.toInt) := by
  have ha := a.isLt
  have hb := b.isLt
  have res : ((BitVec.ofInt 32 ((a.toNat : Int) - b.toNat)).toNat : Int) = ((a.toNat : Int) - b.toNat) % 2 ^ 32 := by
    rw [BitVec.toNat_ofInt]
    omega
  simp only [differenceFlags, if_true, Bool.toNat_false, Nat.cast_zero, Int.sub_zero, BitVec.msb_eq_decide, outOfRange,
    toInt_eq_toNat_sub]
  generalize (BitVec.ofInt 32 ((a.toNat : Int) - b.toNat)).toNat = r at res
  rw [Bool.eq_iff_iff]
  by_cases na : 2147483648 ≤ a.toNat <;> by_cases nb : 2147483648 ≤ b.toNat <;> by_cases nr : 2147483648 ≤ r <;>
    simp [na, nb, nr] <;> omega

end

/-- R161: the conditions read the order of `a` and `b` off Z, C, and the inequality of N and V. -/
theorem cond_order {g : Flags} {a b : Word} (z : g.z = decide (a = b)) (c : g.c = decide (b.toNat ≤ a.toNat))
    (nv : (g.n != g.v) = decide (a.toInt < b.toInt)) :
    (g.cond .eq = true ↔ a = b) ∧ (g.cond .ne = true ↔ a ≠ b)
      ∧ (g.cond .hi = true ↔ b.toNat < a.toNat) ∧ (g.cond .cs = true ↔ b.toNat ≤ a.toNat)
      ∧ (g.cond .cc = true ↔ a.toNat < b.toNat) ∧ (g.cond .ls = true ↔ a.toNat ≤ b.toNat)
      ∧ (g.cond .gt = true ↔ b.toInt < a.toInt) ∧ (g.cond .ge = true ↔ b.toInt ≤ a.toInt)
      ∧ (g.cond .lt = true ↔ a.toInt < b.toInt) ∧ (g.cond .le = true ↔ a.toInt ≤ b.toInt) := by
  have agree : (g.n == g.v) = !decide (a.toInt < b.toInt) := by rw [← nv, bne, Bool.not_not]
  have unsigned : a = b ↔ a.toNat = b.toNat := BitVec.toNat_inj.symm
  have signed : a = b ↔ a.toInt = b.toInt := BitVec.toInt_inj.symm
  refine ⟨?eq, ?ne, ?hi, ?cs, ?cc, ?ls, ?gt, ?ge, ?lt, ?le⟩
  case eq | ne | cs | lt => simp [Flags.cond, z, c, nv]
  case hi | ls =>
    simp only [Flags.cond, c, z, unsigned, Bool.and_eq_true, Bool.or_eq_true, Bool.not_eq_true', decide_eq_true_eq,
      decide_eq_false_iff_not]
    omega
  case cc | ge => simp [Flags.cond, c, agree]
  case gt | le =>
    simp only [Flags.cond, z, nv, agree, signed, Bool.and_eq_true, Bool.or_eq_true, Bool.not_eq_true', decide_eq_true_eq,
      decide_eq_false_iff_not]
    omega

end Sys2Proof.Machine
end

section
/-! PROOFS. The statements of 40_alu_primitives.md on addition, subtraction and the conditions. -/

namespace Sys2Proof.Machine

/-- Settles O6: each is `addInto` on its operands. -/
theorem additionsComputeTheSum : Obligations.AdditionsComputeTheSum := by
  intro rd ra rb imm16 imm5 cu s a b d sum upper
  have upper_eq : upperImm imm16 = upper := upperImm_eq imm16
  refine ⟨?_, ?_, ?_, ?_, ?_⟩
  · rw [exec_add]; exact aluEffect_addInto ..
  · rw [exec_addc]; exact aluEffect_addInto ..
  · rw [exec_addi]; exact aluEffect_addInto ..
  · rw [exec_addis, upper_eq]; exact aluEffect_addInto ..
  · rw [exec_addiC]; exact aluEffect_addInto ..

/-- Settles O7: each is `subInto` on its operands. -/
theorem subtractionsComputeTheDifference : Obligations.SubtractionsComputeTheDifference := by
  intro rd ra rb cu s a b diff
  refine ⟨?_, ?_, ?_⟩
  · rw [exec_sub]; exact aluEffect_subInto ..
  · rw [exec_subc]; exact aluEffect_subInto ..
  · rw [exec_neg]; exact aluEffect_subInto ..

/-- Settles O8: each is `compare` on its operands. -/
theorem comparesWriteFlagsOnly : Obligations.ComparesWriteFlagsOnly := by
  intro rd ra rb imm16 imm5 s d
  refine ⟨?_, ?_, ?_, ?_⟩
  · rw [exec_cmp]; exact flagEffect_compare ..
  · rw [exec_cmpi]; exact flagEffect_compare ..
  · rw [exec_cmpis, upperImm_eq]; exact flagEffect_compare ..
  · rw [exec_cmpiC]; exact flagEffect_compare ..

/-- Settles O9: the conditions are read off Z, C and the inequality of N and V. -/
theorem conditionsOrderAfterCompare : Obligations.ConditionsOrderAfterCompare := by
  intro ra rb s t done a b
  obtain rfl : _ = t := Host.Outcome.next.inj ((exec_cmp s ra rb).symm.trans done)
  rw [State.advance_flags, State.compare_flags]
  exact cond_order (differenceFlags_z ..) (differenceFlags_c ..) (differenceFlags_n_bne_v ..)

/-- Settles O10, by evaluating the table. -/
theorem conditionTruthTable : Obligations.ConditionTruthTable := by
  unfold Obligations.ConditionTruthTable
  decide

end Sys2Proof.Machine
end

section
/-! PROOFS. The statements of 40_alu_primitives.md and 41_sp_form.md on the logical, single-bit and extension
instructions, the immediate loads and the moves. -/

namespace Sys2Proof.Machine

/-! ### N and Z -/

theorem aluEffect_nzInto (s : State) (rd : Reg) (v : Word) (uf : Bool) (d : Word) :
    AluEffect (.next ((s.nzInto rd v uf).advance d)) s rd v (resultFlags s.flags uf v) d :=
  aluEffect_setFlags_setReg s (s.flags.nz uf v) rd v d

/-! ### Extensions -/

theorem setWidth_setWidth_eq_ofNat_mod (n : Nat) (a : Word) :
    (a.setWidth n).setWidth 32 = BitVec.ofNat 32 (a.toNat % 2 ^ n) := by
  rw [setWidth_eq_ofNat, BitVec.toNat_setWidth]

/-! ### Single bits -/

section
variable (a : Word) (k : BitVec 5) {i : Nat} (hi : i < 32)
include hi

theorem one_shiftLeft_getLsbD : (1#32 <<< k.toNat).getLsbD i = decide (i = k.toNat) := by
  simpa [withBitSet] using withBitSet_getLsbD 0#32 k.toNat hi

theorem bitclrResult_getLsbD : (bitclrResult a k).getLsbD i = if i = k.toNat then false else a.getLsbD i := by
  rw [bitclrResult, BitVec.getLsbD_and, BitVec.getLsbD_not, one_shiftLeft_getLsbD k hi]
  split_ifs with here <;> simp [here, hi]

theorem bitsetResult_getLsbD : (bitsetResult a k).getLsbD i = if i = k.toNat then true else a.getLsbD i := by
  rw [bitsetResult, BitVec.getLsbD_or, one_shiftLeft_getLsbD k hi]
  split_ifs with here <;> simp [here]

theorem bittglResult_getLsbD :
    (bittglResult a k).getLsbD i = if i = k.toNat then !bitOf a k else a.getLsbD i := by
  rw [bittglResult, BitVec.getLsbD_xor, one_shiftLeft_getLsbD k hi]
  split_ifs with here <;> simp [here, bitOf]

end

/-! ### The statements -/

/-- Settles O11: each is `nzInto` of its result. -/
theorem logicalResults : Obligations.LogicalResults := by
  intro rd ra rb imm16 imm5 cu s a b d low upper small nz
  have low_eq : lowUimm imm16 = low := setWidth_eq_ofNat imm16
  have upper_eq : upperImm imm16 = upper := upperImm_eq imm16
  have small_eq : uimm5 imm5 = small := setWidth_eq_ofNat imm5
  refine ⟨?_, ?_, ?_, ?_, ?_, ?_, ?_, ?_, ?_, ?_⟩
  · rw [exec_and]; exact aluEffect_nzInto ..
  · rw [exec_or]; exact aluEffect_nzInto ..
  · rw [exec_xor]; exact aluEffect_nzInto ..
  · rw [exec_not]; exact aluEffect_nzInto ..
  · rw [exec_andi, low_eq]; exact aluEffect_nzInto ..
  · rw [exec_andis, upper_eq]; exact aluEffect_nzInto ..
  · rw [exec_ori, low_eq]; exact aluEffect_nzInto ..
  · rw [exec_oris, upper_eq]; exact aluEffect_nzInto ..
  · rw [exec_andiC, small_eq]; exact aluEffect_nzInto ..
  · rw [exec_oriC, small_eq]; exact aluEffect_nzInto ..

/-- Settles O12: bit by bit for the three results; `bittst` writes flags alone. -/
theorem singleBitResults : Obligations.SingleBitResults := by
  intro rd ra k cu s a is
  refine ⟨⟨bitclrResult a k, fun i hi => bitclrResult_getLsbD a k hi, ?_⟩,
    ⟨bitsetResult a k, fun i hi => bitsetResult_getLsbD a k hi, ?_⟩,
    ⟨bittglResult a k, fun i hi => bittglResult_getLsbD a k hi, ?_⟩, ?_⟩
  · rw [exec_bitclr]; exact aluEffect_nzInto ..
  · rw [exec_bitset]; exact aluEffect_nzInto ..
  · rw [exec_bittgl]; exact aluEffect_nzInto ..
  · rw [exec_bittst]; exact flagEffect_setFlags ..

/-- Settles O13: the zero extensions cut the value, the sign extensions are its signed reading. -/
theorem extensionResults : Obligations.ExtensionResults := by
  intro rd ra cu s a sb sh zb zh nz
  have zb_eq : extzbResult a = zb := setWidth_setWidth_eq_ofNat_mod 8 a
  have zh_eq : extzhResult a = zh := setWidth_setWidth_eq_ofNat_mod 16 a
  refine ⟨?_, ?_, ?_, ?_, ?_, ?_, ?_, ?_⟩
  · rw [exec_extsb]; exact aluEffect_nzInto ..
  · rw [exec_extsh]; exact aluEffect_nzInto ..
  · rw [exec_extzb, zb_eq]; exact aluEffect_nzInto ..
  · rw [exec_extzh, zh_eq]; exact aluEffect_nzInto ..
  · rw [exec_extsbC]; exact aluEffect_nzInto ..
  · rw [exec_extshC]; exact aluEffect_nzInto ..
  · rw [exec_extzbC, zb_eq]; exact aluEffect_nzInto ..
  · rw [exec_extzhC, zh_eq]; exact aluEffect_nzInto ..

/-- Settles O14: each writes one register. -/
theorem immediateLoadsAndMove : Obligations.ImmediateLoadsAndMove := by
  intro rd ra imm16 imm5 s
  refine ⟨?_, ?_, ?_, ?_⟩
  · rw [exec_ldi]; exact aluEffect_setReg ..
  · rw [exec_ldis, upperImm_eq]; exact aluEffect_setReg ..
  · rw [exec_ldiC]; exact aluEffect_setReg ..
  · rw [exec_mvC]; exact aluEffect_setReg ..

/-- Settles O15: both only advance pc. -/
theorem nopsChangePcOnly : Obligations.NopsChangePcOnly := fun s => ⟨exec_nop s, exec_nopC s⟩

end Sys2Proof.Machine
end

section
/-! PROOFS. The statements of 41_sp_form.md on the special registers, the custom-engine pair and the conditional
operations, and of 43_j_b_form.md on branches and register jumps. -/

namespace Sys2Proof.Machine

/-! ### Writes of the special registers -/

theorem ceEffect_setCe {P : Word → Word → Prop} (s : State) {lo hi : Word} (holds : P lo hi) :
    CeEffect (.next ((s.setCe lo hi).advance 4#32)) s P :=
  ⟨_, rfl, holds, fun _ => rfl, rfl, rfl, fun _ _ => rfl, fun _ => rfl, ⟨rfl, rfl, rfl, rfl, rfl, rfl, rfl, rfl, rfl⟩,
    .of_eq rfl rfl rfl, rfl⟩

/-- Of two register writes in a row the later wins; r0 takes neither. -/
theorem getReg_setReg_setReg (s : State) (rd ra : Reg) (v w : Word) (q : Reg) :
    ((s.setReg rd v).setReg ra w).getReg q =
      if q = 0#5 then 0#32 else if q = ra then w else if q = rd then v else s.getReg q := by
  simp only [State.getReg_setReg]
  by_cases zero : q = 0#5
  · simp [zero]
  · simp [zero]

/-- Settles O22: reads of the pair write registers, writes of it write the pair. -/
theorem customEngineMoves : Obligations.CustomEngineMoves := by
  intro rd ra s
  refine ⟨?_, ?_, ⟨_, exec_mfcehl s rd ra, fun q => ?_, ?_, ?_, ?_⟩, ?_, ?_, ?_⟩
  · rw [exec_mfcel]; exact aluEffect_setReg ..
  · rw [exec_mfceh]; exact aluEffect_setReg ..
  · exact getReg_setReg_setReg s rd ra s.ceh s.cel q
  · simp
  · simp
  · exact (((OnlyCore.refl s).setReg rd _).setReg ra _).advance _
  · rw [exec_mtcel]; exact ceEffect_setCe s ⟨rfl, rfl⟩
  · rw [exec_mtceh]; exact ceEffect_setCe s ⟨rfl, rfl⟩
  · rw [exec_mtcehl]; exact ceEffect_setCe s ⟨rfl, rfl⟩

/-- Settles O23: `mfcr` is a register write, `mtcr` a control-register write. -/
theorem controlRegisterMoves : Obligations.ControlRegisterMoves := by
  intro rd n s
  refine ⟨?_, ⟨_, exec_mtcr s rd n, fun m => s.getCr_setCr n m _, fun _ => rfl, rfl, rfl, fun _ _ => rfl, ⟨rfl, rfl⟩,
    ⟨rfl, rfl, rfl, rfl, rfl, rfl, rfl, rfl, rfl⟩, .of_eq rfl rfl rfl, rfl⟩⟩
  rw [exec_mfcr]
  exact aluEffect_setReg ..

/-- Settles O24: sr0 reads as the packed flags and a write to it unpacks; the others are storage. -/
theorem systemRegisterMoves : Obligations.SystemRegisterMoves := by
  intro rd n s
  refine ⟨?_, fun i _ => ?_, ⟨_, exec_mtsr s rd n, ?_, fun m hm => ?_, fun q => ?_, ?_, fun m => ?_, ?_, ?_, ?_, ?_⟩⟩
  · rw [exec_mfsr]; exact aluEffect_setReg ..
  · rw [State.getSr_zero]; exact s.flags.getLsbD_pack i
  · exact s.setSr_flags n _
  · exact s.getSr_setSr n m _ hm
  · exact s.getReg_setSr n _ q
  · simp
  · exact State.getCr_of_cr (s.setSr_cr n _) m
  · exact ⟨s.setSr_cel n _, s.setSr_ceh n _⟩
  · exact (((Edits.refl (p := .all)).setSr n _ (fun _ => rfl) (fun _ => rfl)).advance _).sameRun
  · exact .of_eq (s.setSr_mem n _) (s.setSr_intc n _) (s.setSr_segments n _)
  · exact s.setSr_draws n _

/-! ### Conditional operations -/

/-- A move that is not made leaves what a move of the register to itself leaves. -/
theorem aluEffect_advance (s : State) (rd : Reg) (d : Word) :
    AluEffect (.next (s.advance d)) s rd (s.getReg rd) s.flags d := by
  refine ⟨_, rfl, fun q => ?_, rfl, rfl, (OnlyCore.refl s).advance d⟩
  split_ifs with same
  · rw [State.getReg_advance, same.1]
  · rfl

/-- Settles O25: `t{cond}` writes the flags; `mv{cond}` is a move or only advances pc. -/
theorem conditionalOperations : Obligations.ConditionalOperations := by
  intro c rd ra s
  refine ⟨flagEffect_setFlags s _ _, ?_⟩
  rw [exec_mvCond]
  split_ifs with holds
  · exact aluEffect_setReg ..
  · exact aluEffect_advance ..

/-! ### Branches and register jumps -/

/-- Going on is a jump to the next instruction. -/
theorem jumpEffect_advance (s : State) (d : Word) : JumpEffect (.next (s.advance d)) s (s.pc + d) none :=
  jumpEffect_jump s (s.pc + d)

/-- Settles O27: taken, a jump to the integer target; not taken, the next instruction. -/
theorem branchesFollowTheCondition : Obligations.BranchesFollowTheCondition := by
  intro c disp22 disp8 s far near
  have reach22 : bTarget s.pc disp22 = far := pcRelative_eq_ofInt s.pc disp22
  have reach8 : bcTarget s.pc disp8 = near := pcRelative_eq_ofInt s.pc disp8
  rw [exec_bCond, exec_bCondL, exec_bCondC, reach22, reach8]
  split_ifs with taken
  · exact ⟨jumpEffect_jump s far, jumpEffect_link_jump s _ far, jumpEffect_jump s near⟩
  · exact ⟨jumpEffect_advance s _, jumpEffect_advance s _, jumpEffect_advance s _⟩

/-- Settles O28: the target is read from the state before the link. -/
theorem registerJumps : Obligations.RegisterJumps := by
  intro ra s
  rw [exec_br, exec_brl, exec_brC, exec_brlC]
  exact ⟨jumpEffect_jump s _, jumpEffect_link_jump s _ _, jumpEffect_jump s _, jumpEffect_link_jump s _ _⟩

end Sys2Proof.Machine
end

section
/-! PROOFS. The statements of 10_state.md R48, 70_reset_and_hazards.md and 20_memory.md section 1 on reset and the host's
run controls. -/

namespace Sys2Proof.Machine

/-! ### Reset -/

theorem reset_getReg (r : Reg) : State.reset.getReg r = 0#32 := by
  simp [State.getReg, State.reset, State.constructed]

theorem reset_getSr (n : SpecialIdx) : State.reset.getSr n = 0#32 := by
  by_cases view : n = 0#5
  · rw [view, State.getSr_zero]
    decide
  · simp [State.getSr, view, State.reset, State.constructed]

theorem reset_getCr (n : SpecialIdx) : State.reset.getCr n = 0#32 := by
  simp [State.getCr, State.reset, State.constructed]

/-- The memory map of R76. -/
theorem standardSegments_get (seg : Nat) : standardSegments.get seg =
    if seg = 0xA0 then .dense .dram else if seg = 0x9E then .dense .flash
    else if seg = 0x08 then .mmio else if seg = 0x09 then .cdrom else .sink := by
  by_cases dram : seg = 0xA0
  · subst dram
    rfl
  by_cases flash : seg = 0x9E
  · subst flash
    rfl
  by_cases mmio : seg = 0x08
  · subst mmio
    rfl
  by_cases cdrom : seg = 0x09
  · subst cdrom
    rfl
  simp [standardSegments, Segments.get, Cells.get, dram, flash, mmio, cdrom]

/-- Settles O58, piece by piece. -/
theorem resetValues : Obligations.ResetValues :=
  ⟨rfl, rfl, rfl, rfl, reset_getReg, reset_getSr, reset_getCr, rfl, rfl, rfl, rfl, rfl, rfl, rfl, rfl, rfl, fun _ => rfl,
    fun a => standardSegments_get (segmentOf a), rfl, rfl, rfl, rfl, rfl, rfl⟩

/-- Settles O59: each call's record update; a rebinding is read back through the table. -/
theorem hostRunControls : Obligations.HostRunControls := by
  intro s
  refine ⟨rfl, rfl, rfl, rfl, rfl, rfl, fun on seg r => State.setRegion_of_initialized on seg r,
    fun off seg r => ⟨_, State.setRegion_of_not_initialized off seg r, rfl, fun a => ?_⟩⟩
  exact Segments.get_set s.segments seg.toNat (segmentOf a) r

end Sys2Proof.Machine
end

section
/-! PROOFS. The statements of 40_alu_primitives.md section 7: exact products and quotients (R151 to R153). -/

namespace Sys2Proof.Machine

/-! ### Products -/

/-- The two words of a 64-bit value, as naturals. -/
theorem splitProduct_toNat (p : DWord) :
    (splitProduct p).1.toNat = p.toNat % 2 ^ 32 ∧ (splitProduct p).2.toNat = p.toNat / 2 ^ 32 := by
  have hp := p.isLt
  simp only [splitProduct, BitVec.toNat_setWidth, BitVec.toNat_ushiftRight, Nat.shiftRight_eq_div_pow]
  exact ⟨trivial, by omega⟩

/-- A product of two signed words fits 64 bits with room. -/
theorem toInt_mul_bounds (a b : Word) : -2 ^ 62 ≤ a.toInt * b.toInt ∧ a.toInt * b.toInt ≤ 2 ^ 62 := by
  have size (x : Word) : |x.toInt| ≤ 2 ^ 31 := abs_le.2 ⟨BitVec.le_toInt x, (BitVec.toInt_lt (x := x)).le⟩
  have bound : |a.toInt * b.toInt| ≤ 2 ^ 31 * 2 ^ 31 := by
    rw [abs_mul]
    exact mul_le_mul (size a) (size b) (abs_nonneg _) (by norm_num)
  obtain ⟨low, high⟩ := abs_le.1 bound
  constructor <;> linarith

theorem mulPair_exact (a b : Word) :
    (mulPair a b).2.toInt * 2 ^ 32 + ((mulPair a b).1.toNat : Int) = a.toInt * b.toInt := by
  obtain ⟨low, high⟩ := toInt_mul_bounds a b
  obtain ⟨lo, hi⟩ := splitProduct_toNat (BitVec.ofInt 64 (a.toInt * b.toInt))
  rw [BitVec.toNat_ofInt] at lo hi
  rw [mulPair, toInt_eq_toNat_sub, lo, hi]
  generalize a.toInt * b.toInt = p at low high
  split_ifs <;> omega

theorem muluPair_exact (a b : Word) : (muluPair a b).2.toNat * 2 ^ 32 + (muluPair a b).1.toNat = a.toNat * b.toNat := by
  have bound : a.toNat * b.toNat < 2 ^ 32 * 2 ^ 32 := Nat.mul_lt_mul'' a.isLt b.isLt
  obtain ⟨lo, hi⟩ := splitProduct_toNat (BitVec.ofNat 64 (a.toNat * b.toNat))
  rw [BitVec.toNat_ofNat] at lo hi
  rw [muluPair, lo, hi]
  omega

/-- Settles O19: the pair is the exact product, split. -/
theorem multiplyExactProduct : Obligations.MultiplyExactProduct := by
  intro ra rb s a b
  rw [exec_mul, exec_mulu]
  exact ⟨ceEffect_setCe s (mulPair_exact a b), ceEffect_setCe s (muluPair_exact a b)⟩

/-! ### Quotients -/

/-- A signed word holds every integer of its range. -/
theorem toInt_ofInt_of_range {x : Int} (low : -2 ^ 31 ≤ x) (high : x < 2 ^ 31) : (BitVec.ofInt 32 x).toInt = x := by
  rw [toInt_eq_toNat_sub, BitVec.toNat_ofInt]
  split_ifs <;> omega

/-- The quotient is out of a word's range in the one overflow only. -/
theorem tdiv_range {a b : Word} (nonzero : b.toInt ≠ 0) (fits : ¬ (a.toInt = -2 ^ 31 ∧ b.toInt = -1)) :
    -2 ^ 31 ≤ a.toInt.tdiv b.toInt ∧ a.toInt.tdiv b.toInt < 2 ^ 31 := by
  have low := BitVec.le_toInt a
  have high := BitVec.toInt_lt (x := a)
  have size : (a.toInt.tdiv b.toInt).natAbs = a.toInt.natAbs / b.toInt.natAbs := Int.natAbs_tdiv ..
  have size_le : a.toInt.natAbs / b.toInt.natAbs ≤ a.toInt.natAbs := Nat.div_le_self ..
  refine ⟨by omega, ?_⟩
  by_contra past
  have half : b.toInt.natAbs = 1 := by
    by_contra wide
    have : a.toInt.natAbs / b.toInt.natAbs ≤ a.toInt.natAbs / 2 := Nat.div_le_div_left (by omega) (by omega)
    omega
  rw [half, Nat.div_one] at size
  have one : b.toInt = 1 := by omega
  rw [one, Int.tdiv_one] at past
  omega

/-- R153: the pair of a division whose quotient fits. -/
theorem divPair_exact {a b : Word} (nonzero : b.toInt ≠ 0) (fits : ¬ (a.toInt = -2 ^ 31 ∧ b.toInt = -1)) :
    ∃ q r, divPair a b = some (q, r) ∧ a.toInt = q.toInt * b.toInt + r.toInt ∧ r.toInt.natAbs < b.toInt.natAbs
      ∧ (r.toInt = 0 ∨ (r.toInt < 0 ↔ a.toInt < 0)) := by
  obtain ⟨qlow, qhigh⟩ := tdiv_range nonzero fits
  have low := BitVec.le_toInt b
  have high := BitVec.toInt_lt (x := b)
  have remainder : a.toInt - a.toInt.tdiv b.toInt * b.toInt = a.toInt.tmod b.toInt := by
    have := Int.tdiv_mul_add_tmod a.toInt b.toInt
    omega
  have small : (a.toInt.tmod b.toInt).natAbs < b.toInt.natAbs := by
    rw [Int.natAbs_tmod]
    exact Nat.mod_lt _ (Int.natAbs_pos.2 nonzero)
  have divisor : b ≠ 0#32 := fun zero => nonzero (by simp [zero])
  refine ⟨_, _, if_neg divisor, ?_⟩
  rw [remainder, toInt_ofInt_of_range qlow qhigh, toInt_ofInt_of_range (by omega) (by omega)]
  refine ⟨(Int.tdiv_mul_add_tmod ..).symm, small, ?_⟩
  rcases lt_or_ge a.toInt 0 with negative | nonnegative
  · have := Int.tmod_nonneg b.toInt (a := -a.toInt) (by omega)
    rw [Int.neg_tmod] at this
    omega
  · have := Int.tmod_nonneg b.toInt nonnegative
    omega

/-- R153, D27: the one overflow. -/
theorem divPair_overflow {a b : Word} (overflow : a.toInt = -2 ^ 31 ∧ b.toInt = -1) :
    divPair a b = some (0x80000000#32, 0#32) := by
  obtain rfl : a = 0x80000000#32 := BitVec.toInt_inj.1 overflow.1
  obtain rfl : b = 0xFFFFFFFF#32 := BitVec.toInt_inj.1 overflow.2
  decide

theorem divuPair_exact {a b : Word} (nonzero : b.toNat ≠ 0) :
    ∃ q r, divuPair a b = some (q, r) ∧ a.toNat = q.toNat * b.toNat + r.toNat ∧ r.toNat < b.toNat := by
  have divisor : b ≠ 0#32 := fun zero => nonzero (by simp [zero])
  have small : a.toNat % b.toNat < b.toNat := Nat.mod_lt _ (Nat.pos_of_ne_zero nonzero)
  have quotient : a.toNat / b.toNat ≤ a.toNat := Nat.div_le_self ..
  have ha := a.isLt
  have hb := b.isLt
  refine ⟨_, _, if_neg divisor, ?_⟩
  rw [BitVec.toNat_ofNat, BitVec.toNat_ofNat, Nat.mod_eq_of_lt (by omega), Nat.mod_eq_of_lt (by omega)]
  exact ⟨(Nat.div_add_mod' ..).symm, small⟩

/-- Settles O20: divisor 0, the overflow, and the exact quotient and remainder. -/
theorem divisionResults : Obligations.DivisionResults := by
  intro ra rb s a b
  have zero_of_toInt (zero : b.toInt = 0) : s.getReg rb = 0#32 := BitVec.toInt_inj.1 zero
  have zero_of_toNat (zero : b.toNat = 0) : s.getReg rb = 0#32 := BitVec.toNat_inj.1 zero
  constructor
  · by_cases zero : b.toNat = 0
    · rw [exec_divu_of_divisor_zero (zero_of_toNat zero)]
      exact ceEffect_setCe s (lo := s.cel) (hi := s.ceh) (by simp [zero])
    · obtain ⟨q, r, pair, division⟩ := divuPair_exact (a := a) zero
      rw [exec_divu, pair]
      exact ceEffect_setCe s (by simpa [zero] using division)
  · by_cases zero : b.toInt = 0
    · rw [exec_div_of_divisor_zero (zero_of_toInt zero)]
      exact ceEffect_setCe s (lo := s.cel) (hi := s.ceh) (by simp [zero])
    · by_cases overflow : a.toInt = -2 ^ 31 ∧ b.toInt = -1
      · rw [exec_div, divPair_overflow overflow]
        exact ceEffect_setCe s (by rw [if_neg zero, if_pos overflow]; exact ⟨rfl, rfl⟩)
      · obtain ⟨q, r, pair, division⟩ := divPair_exact zero overflow
        rw [exec_div, pair]
        exact ceEffect_setCe s (by rw [if_neg zero, if_neg overflow]; exact division)

end Sys2Proof.Machine
end

section
/-! PROOFS. Shifts and rotates: their integer and bit readings (40_alu_primitives.md R146, R147, D24). -/

namespace Sys2Proof.Machine

/-! ### The amount -/

theorem shiftAmount_eq_mod (amount : Word) : shiftAmount amount = amount.toNat % 32 := by
  rw [shiftAmount, BitVec.toNat_and]
  exact Nat.and_two_pow_sub_one_eq_mod amount.toNat 5

theorem shiftAmount_lt (amount : Word) : shiftAmount amount < 32 := by
  rw [shiftAmount_eq_mod]
  exact Nat.mod_lt _ (by decide)

theorem shiftAmount_uimm5 (imm : BitVec 5) : shiftAmount (uimm5 imm) = imm.toNat := by
  have small := imm.isLt
  rw [shiftAmount_eq_mod, uimm5, BitVec.toNat_setWidth]
  omega

/-! ### The shifts -/

/-- The result of each kind of shift by `n`, read as an arithmetic function or a rotation. -/
def shiftValue (kind : ShiftKind) (a : Word) (n : Nat) : Word :=
  match kind with
  | .sll => BitVec.ofNat 32 (a.toNat * 2 ^ n)
  | .srl => BitVec.ofNat 32 (a.toNat / 2 ^ n)
  | .sra => BitVec.ofInt 32 (a.toInt / 2 ^ n)
  | .ror => a.rotateRight n
  | .rol => a.rotateLeft n

theorem shiftValue_zero (kind : ShiftKind) (a : Word) : shiftValue kind a 0 = a := by
  cases kind
  case sll | srl | sra => simp [shiftValue]
  case ror | rol => simp [shiftValue, BitVec.rotateRight_def, BitVec.rotateLeft_def, BitVec.ushiftRight_eq_zero]

theorem shiftResult_eq_shiftValue (kind : ShiftKind) (a amount : Word) :
    shiftResult kind a amount = shiftValue kind a (shiftAmount amount) := by
  have small := shiftAmount_lt amount
  unfold shiftResult
  dsimp only
  generalize shiftAmount amount = n at small
  split_ifs with zero
  · rw [zero, shiftValue_zero]
  · have same : n % 32 = n := Nat.mod_eq_of_lt small
    cases kind
    case sll => exact BitVec.eq_of_toNat_eq (by simp [shiftValue, Nat.shiftLeft_eq])
    case srl =>
      apply BitVec.eq_of_toNat_eq
      have fits : a.toNat / 2 ^ n < 2 ^ 32 := lt_of_le_of_lt (Nat.div_le_self ..) a.isLt
      rw [shiftValue, BitVec.toNat_ofNat, BitVec.toNat_ushiftRight, Nat.shiftRight_eq_div_pow, Nat.mod_eq_of_lt fits]
    case sra =>
      rw [shiftValue, BitVec.sshiftRight, Int.shiftRight_eq_div_pow]
      rfl
    case ror => rw [shiftValue, BitVec.rotateRight_def, same]
    case rol => rw [shiftValue, BitVec.rotateLeft_def, same]

theorem Flags.shift_eq_shiftedFlags (f : Flags) (uf : Bool) (kind : ShiftKind) (a amount : Word) :
    f.shift uf kind a amount = shiftedFlags f uf (shiftValue kind a (shiftAmount amount)) (shiftAmount amount)
      (shiftCarry kind a (shiftAmount amount)) := by
  unfold Flags.shift shiftedFlags
  dsimp only
  rw [shiftResult_eq_shiftValue]
  rfl

theorem aluEffect_shiftInto (s : State) (rd : Reg) (kind : ShiftKind) (a amount : Word) (uf : Bool) (d : Word) {n : Nat}
    (hn : shiftAmount amount = n) :
    AluEffect (.next ((s.shiftInto rd kind a amount uf).advance d)) s rd (shiftValue kind a n)
      (shiftedFlags s.flags uf (shiftValue kind a n) n (shiftCarry kind a n)) d := by
  rw [State.shiftInto_eq, Flags.shift_eq_shiftedFlags, shiftResult_eq_shiftValue, hn]
  exact aluEffect_setFlags_setReg ..

/-! ### The rotates through the carry -/

/-- The 33 bits that turn: the carry above the word. -/
def joined (res : Word) (cc : Bool) : BitVec 33 := BitVec.ofNat 33 (cc.toNat * 2 ^ 32 + res.toNat)

theorem joined_getLsbD (res : Word) (cc : Bool) {i : Nat} (hi : i < 33) :
    (joined res cc).getLsbD i = if i < 32 then res.getLsbD i else cc := by
  rw [joined, BitVec.getLsbD_ofNat, decide_eq_true hi, Bool.true_and, mul_comm,
    Nat.testBit_two_pow_mul_add _ res.isLt]
  split_ifs with low
  · rfl
  · obtain rfl : i = 32 := by omega
    cases cc <;> rfl

/-- How far up the 33 bits one step looks: one to the right, or 32, which is one to the left. -/
def turn : RotateKind → Nat
  | .rorc => 1
  | .rolc => 32

theorem joined_rotateStep (kind : RotateKind) (res : Word) (cc : Bool) {i : Nat} (hi : i < 33) :
    (joined (rotateStep kind res cc).1 (rotateStep kind res cc).2).getLsbD i
      = (joined res cc).getLsbD ((i + turn kind) % 33) := by
  rw [joined_getLsbD _ _ hi, joined_getLsbD _ _ (Nat.mod_lt _ (by decide))]
  cases kind <;> interval_cases i <;> simp [rotateStep, turn]

theorem joined_rotateSteps (kind : RotateKind) (n : Nat) : ∀ (res : Word) (cc : Bool) {i : Nat}, i < 33 →
    (joined (rotateSteps kind n res cc).1 (rotateSteps kind n res cc).2).getLsbD i
      = (joined res cc).getLsbD ((i + n * turn kind) % 33) := by
  induction n with
  | zero =>
    intro res cc i hi
    rw [Nat.zero_mul, Nat.add_zero, Nat.mod_eq_of_lt hi, rotateSteps]
  | succ n ih =>
    intro res cc i hi
    rw [rotateSteps, ih _ _ hi, joined_rotateStep _ _ _ (Nat.mod_lt _ (by decide)), Nat.mod_add_mod, Nat.succ_mul,
      Nat.add_assoc]

/-- The whole turned by `n`. -/
def turned (kind : RotateKind) (whole : BitVec 33) (n : Nat) : BitVec 33 :=
  match kind with
  | .rorc => whole.rotateRight n
  | .rolc => whole.rotateLeft n

theorem turned_getLsbD (kind : RotateKind) (whole : BitVec 33) {n i : Nat} (hn : n < 32) (hi : i < 33) :
    (turned kind whole n).getLsbD i = whole.getLsbD ((i + n * turn kind) % 33) := by
  have same : n % 33 = n := Nat.mod_eq_of_lt (by omega)
  cases kind
  case rorc =>
    rw [turned, BitVec.getLsbD_rotateRight, same, decide_eq_true hi, Bool.true_and, turn,
      Bool.cond_decide]
    split_ifs <;> congr 1 <;> omega
  case rolc =>
    rw [turned, BitVec.getLsbD_rotateLeft, same, decide_eq_true hi, Bool.true_and, turn,
      Bool.cond_decide]
    split_ifs <;> congr 1 <;> omega

/-- R147, D24: the steps turn the 33 bits. -/
theorem joined_rotateSteps_eq_turned (kind : RotateKind) (res : Word) (cc : Bool) {n : Nat} (hn : n < 32) :
    joined (rotateSteps kind n res cc).1 (rotateSteps kind n res cc).2 = turned kind (joined res cc) n := by
  apply BitVec.eq_of_getLsbD_eq
  intro i hi
  rw [joined_rotateSteps kind n res cc hi, turned_getLsbD kind _ hn hi]

theorem joined_setWidth (res : Word) (cc : Bool) : (joined res cc).setWidth 32 = res := by
  apply BitVec.eq_of_getLsbD_eq
  intro i hi
  rw [BitVec.getLsbD_setWidth, decide_eq_true hi, Bool.true_and, joined_getLsbD _ _ (by omega), if_pos hi]

theorem aluEffect_rotateInto (s : State) (rd : Reg) (kind : RotateKind) (a amount : Word) (uf : Bool) {n : Nat}
    (hn : shiftAmount amount = n) :
    AluEffect (.next ((s.rotateInto rd kind a amount uf).advance 4#32)) s rd
      ((turned kind (joined a s.flags.c) n).setWidth 32)
      (shiftedFlags s.flags uf ((turned kind (joined a s.flags.c) n).setWidth 32) n
        ((turned kind (joined a s.flags.c) n).getLsbD 32)) 4#32 := by
  have small : n < 32 := hn ▸ shiftAmount_lt amount
  rw [← joined_rotateSteps_eq_turned kind a s.flags.c small, joined_setWidth, joined_getLsbD _ _ (by decide),
    if_neg (by decide), ← hn]
  exact aluEffect_setFlags_setReg s (s.flags.rotate uf kind a amount) rd (rotateResult kind a amount s.flags.c) 4#32

end Sys2Proof.Machine
end

section
/-! PROOFS. The statements of 40_alu_primitives.md section 4. -/

namespace Sys2Proof.Machine

/-- Settles O16: each is `shiftInto` by x[rB]. -/
theorem shiftsByRegister : Obligations.ShiftsByRegister := by
  intro rd ra rb cu s a n shift
  have hn : shiftAmount (s.getReg rb) = n := shiftAmount_eq_mod _
  refine ⟨?_, ?_, ?_, ?_, ?_⟩
  · rw [exec_sll]; exact aluEffect_shiftInto s rd .sll a _ cu 4 hn
  · rw [exec_srl]; exact aluEffect_shiftInto s rd .srl a _ cu 4 hn
  · rw [exec_sra]; exact aluEffect_shiftInto s rd .sra a _ cu 4 hn
  · rw [exec_ror]; exact aluEffect_shiftInto s rd .ror a _ cu 4 hn
  · rw [exec_rol]; exact aluEffect_shiftInto s rd .rol a _ cu 4 hn

/-- Settles O17: each is `shiftInto` by the immediate. -/
theorem shiftsByImmediate : Obligations.ShiftsByImmediate := by
  intro rd ra imm cu s a d n full short
  have hn : shiftAmount (uimm5 imm) = n := shiftAmount_uimm5 imm
  refine ⟨?_, ?_, ?_, ?_, ?_, ?_, ?_, ?_, ?_, ?_⟩
  · rw [exec_slli]; exact aluEffect_shiftInto s rd .sll a _ cu 4 hn
  · rw [exec_srli]; exact aluEffect_shiftInto s rd .srl a _ cu 4 hn
  · rw [exec_srai]; exact aluEffect_shiftInto s rd .sra a _ cu 4 hn
  · rw [exec_rori]; exact aluEffect_shiftInto s rd .ror a _ cu 4 hn
  · rw [exec_roli]; exact aluEffect_shiftInto s rd .rol a _ cu 4 hn
  · rw [exec_slliC]; exact aluEffect_shiftInto s rd .sll d _ true 2 hn
  · rw [exec_srliC]; exact aluEffect_shiftInto s rd .srl d _ true 2 hn
  · rw [exec_sraiC]; exact aluEffect_shiftInto s rd .sra d _ true 2 hn
  · rw [exec_roriC]; exact aluEffect_shiftInto s rd .ror d _ true 2 hn
  · rw [exec_roliC]; exact aluEffect_shiftInto s rd .rol d _ true 2 hn

/-- Settles O18: each is `rotateInto`, whose steps turn the 33 bits. -/
theorem rotatesThroughCarry : Obligations.RotatesThroughCarry := by
  intro rd ra rb imm cu s whole n rot
  have hn : shiftAmount (s.getReg rb) = n := shiftAmount_eq_mod _
  have himm : shiftAmount (uimm5 imm) = imm.toNat := shiftAmount_uimm5 imm
  refine ⟨?_, ?_, ?_, ?_⟩
  · rw [exec_rorc]; exact aluEffect_rotateInto s rd .rorc _ _ cu hn
  · rw [exec_rolc]; exact aluEffect_rotateInto s rd .rolc _ _ cu hn
  · rw [exec_roric]; exact aluEffect_rotateInto s rd .rorc _ _ cu himm
  · rw [exec_rolic]; exact aluEffect_rotateInto s rd .rolc _ _ cu himm

end Sys2Proof.Machine
end

section
/-! PROOFS. Loads (44_rix_memory_form.md R260 to R263, 45_compressed.md). -/

namespace Sys2Proof.Machine

/-! ### Offsets -/

theorem spOffset_eq (imm : BitVec 7) : spOffset imm = BitVec.ofNat 32 (4 * imm.toNat) := by
  apply BitVec.eq_of_toNat_eq
  simp [spOffset, Nat.shiftLeft_eq, Nat.mul_comm]

/-! ### The value loaded -/

theorem extend_lh (s : State) (ea : Word) : LoadOp.lh.extend (s.memRead ea .half).1 = loadHalfSigned s ea := rfl
theorem extend_lhu (s : State) (ea : Word) : LoadOp.lhu.extend (s.memRead ea .half).1 = loadHalfUnsigned s ea :=
  setWidth_setWidth_eq_ofNat_mod 16 _
theorem extend_lb (s : State) (ea : Word) : LoadOp.lb.extend (s.memRead ea .byte).1 = loadByteSigned s ea := rfl
theorem extend_lbu (s : State) (ea : Word) : LoadOp.lbu.extend (s.memRead ea .byte).1 = loadByteUnsigned s ea :=
  setWidth_setWidth_eq_ofNat_mod 8 _

/-- What each load gives, by the words of the statements. -/
def loaded (s : State) (op : LoadOp) (ea : Word) : Word :=
  match op with
  | .lw => loadWord s ea
  | .lh => loadHalfSigned s ea
  | .lhu => loadHalfUnsigned s ea
  | .lb => loadByteSigned s ea
  | .lbu => loadByteUnsigned s ea

theorem extend_eq_loaded (s : State) (op : LoadOp) (ea : Word) : op.extend
    (s.memRead ea op.width).1 = loaded s op ea := by
  cases op
  case lw => rfl
  case lh => exact extend_lh s ea
  case lhu => exact extend_lhu s ea
  case lb => exact extend_lb s ea
  case lbu => exact extend_lbu s ea

/-! ### The effect -/

theorem loadEffect_load (s : State) (op : LoadOp) (rd : Reg) (ea d : Word) :
    LoadEffect (.next ((s.load op rd ea).advance d)) s rd (loaded s op ea) d := by
  have edits := ((Edits.refl (p := {}) (s := s)).load op rd ea).advance d
  refine ⟨_, rfl, fun q => ?_, ?_, ?_, edits.sameSr rfl, edits.sameCr rfl, edits.sameCe rfl, edits.sameRun, ?_, ?_⟩
  · rw [State.getReg_advance, State.load_eq, State.getReg_setReg, extend_eq_loaded, State.getReg_memRead]
  · simp [State.load_eq]
  · simp [State.load_eq]
  · exact .of_eq (by simp [State.load_eq]) (by simp [State.load_eq]) (by simp [State.load_eq])
  · simpa [State.load_eq] using s.memRead_draws ea op.width

theorem loadPostEffect_loadPost (s : State) (op : LoadOp) (rd ra : Reg) (off d : Word) :
    LoadPostEffect (.next ((s.loadPost op rd ra off).advance d)) s rd ra (loaded s op (s.getReg ra)) (s.getReg ra + off)
      d := by
  have edits := ((Edits.refl (p := {}) (s := s)).loadPost op rd ra off).advance d
  refine ⟨_, rfl, fun q => ?_, ?_, ?_, edits.sameSr rfl, edits.sameCr rfl, edits.sameCe rfl, edits.sameRun, ?_, ?_⟩
  · rw [State.getReg_advance, State.loadPost_eq, getReg_setReg_setReg, extend_eq_loaded, State.getReg_memRead]
  · simp [State.loadPost_eq]
  · simp [State.loadPost_eq]
  · exact .of_eq (by simp [State.loadPost_eq]) (by simp [State.loadPost_eq]) (by simp [State.loadPost_eq])
  · simpa [State.loadPost_eq] using s.memRead_draws (s.getReg ra) op.width

end Sys2Proof.Machine
end

section
/-! PROOFS. The statements of 44_rix_memory_form.md and 45_compressed.md on loads. -/

namespace Sys2Proof.Machine

/-- Settles O34: each is `load` at the base plus its offset. -/
theorem baseOffsetLoads : Obligations.BaseOffsetLoads := by
  intro rd ra imm12 imm15 s e f
  refine ⟨?_, ?_, ?_, ?_, ?_, ?_, ?_, ?_, ?_, ?_⟩
  · rw [exec_lwRix]; exact loadEffect_load s .lw rd e 4
  · rw [exec_lhRix]; exact loadEffect_load s .lh rd e 4
  · rw [exec_lhuRix]; exact loadEffect_load s .lhu rd e 4
  · rw [exec_lbRix]; exact loadEffect_load s .lb rd e 4
  · rw [exec_lbuRix]; exact loadEffect_load s .lbu rd e 4
  · rw [exec_lw]; exact loadEffect_load s .lw rd f 4
  · rw [exec_lh]; exact loadEffect_load s .lh rd f 4
  · rw [exec_lhu]; exact loadEffect_load s .lhu rd f 4
  · rw [exec_lb]; exact loadEffect_load s .lb rd f 4
  · rw [exec_lbu]; exact loadEffect_load s .lbu rd f 4

/-- Settles O35: each is `load` at a register's address, or r2 plus the scaled immediate. -/
theorem registerIndirectLoads : Obligations.RegisterIndirectLoads := by
  intro rd ra imm7 s e
  refine ⟨?_, ?_, ?_, ?_, ?_, ?_, ?_, ?_⟩
  · rw [exec_lcb]; exact loadEffect_load s .lbu rd e 4
  · rw [exec_lcw]; exact loadEffect_load s .lw rd e 4
  · rw [exec_lwC]; exact loadEffect_load s .lw rd e 2
  · rw [exec_lhC]; exact loadEffect_load s .lh rd e 2
  · rw [exec_lhuC]; exact loadEffect_load s .lhu rd e 2
  · rw [exec_lbC]; exact loadEffect_load s .lb rd e 2
  · rw [exec_lbuC]; exact loadEffect_load s .lbu rd e 2
  · rw [exec_lwpC, spOffset_eq]; exact loadEffect_load s .lw rd _ 2

/-- Settles O36: each is `loadPost`, which reads at the old base and writes rD last. -/
theorem postIncrementLoads : Obligations.PostIncrementLoads := by
  intro rd ra imm12 s e e'
  refine ⟨?_, ?_, ?_, ?_, ?_, ?_⟩
  · rw [exec_lwPi]; exact loadPostEffect_loadPost s .lw rd ra _ 4
  · rw [exec_lhPi]; exact loadPostEffect_loadPost s .lh rd ra _ 4
  · rw [exec_lhuPi]; exact loadPostEffect_loadPost s .lhu rd ra _ 4
  · rw [exec_lbPi]; exact loadPostEffect_loadPost s .lb rd ra _ 4
  · rw [exec_lbuPi]; exact loadPostEffect_loadPost s .lbu rd ra _ 4
  · rw [exec_popC]; exact loadPostEffect_loadPost s .lw rd ra _ 2

end Sys2Proof.Machine
end

section
/-! PROOFS. Words and their bytes as numbers, and reads of the dense regions (20_memory.md R66, R67). -/

namespace Sys2Proof.Machine

/-! ### Little-endian words -/

theorem byteOf_toNat (v : Word) (k : Nat) : (byteOf v k).toNat = v.toNat / 2 ^ (8 * k) % 2 ^ 8 := by
  rw [byteOf, BitVec.toNat_setWidth, BitVec.toNat_ushiftRight, Nat.shiftRight_eq_div_pow]

/-- While the bytes above leave room for one more, the first byte and the rest do not overlap. -/
theorem leWord_cons_toNat (b : Byte) {bs : List Byte} (room : (leWord bs).toNat < 2 ^ 24) :
    (leWord (b :: bs)).toNat = b.toNat + 2 ^ 8 * (leWord bs).toNat := by
  have low : b.toNat < 2 ^ 8 := b.isLt
  have shifted : (leWord bs <<< 8).toNat = 2 ^ 8 * (leWord bs).toNat := by
    rw [BitVec.toNat_shiftLeft, Nat.shiftLeft_eq, Nat.mul_comm]
    exact Nat.mod_eq_of_lt (by omega)
  rw [leWord, BitVec.toNat_or, shifted, BitVec.toNat_setWidth_of_le (by decide), Nat.or_comm,
    ← Nat.two_pow_add_eq_or_of_lt low, Nat.add_comm]

theorem leWord_lt (bs : List Byte) (short : bs.length ≤ 4) : (leWord bs).toNat < 2 ^ (8 * bs.length) := by
  induction bs with
  | nil => decide
  | cons b bs ih =>
    rw [List.length_cons] at short ⊢
    have rest := ih (by omega)
    have room : (leWord bs).toNat < 2 ^ 24 :=
      rest.trans_le (Nat.pow_le_pow_right (by decide) (by omega))
    have low : b.toNat < 2 ^ 8 := b.isLt
    rw [leWord_cons_toNat b room, Nat.mul_succ, Nat.pow_add]
    omega

/-- The little-endian sum of R66. -/
theorem leWord_map_range_toNat (n : Nat) : ∀ f : Nat → Byte, n ≤ 4 →
    (leWord ((List.range n).map f)).toNat = ((List.range n).map fun k => (f k).toNat * 2 ^ (8 * k)).sum := by
  induction n with
  | zero => intro f _; rfl
  | succ n ih =>
    intro f short
    have room := leWord_lt ((List.range n).map fun k => f (k + 1)) (by simpa using Nat.le_of_lt short)
    rw [List.length_map, List.length_range] at room
    have bound : 2 ^ (8 * n) ≤ 2 ^ 24 := Nat.pow_le_pow_right (by decide) (by omega)
    rw [List.range_succ_eq_map, List.map_cons, List.map_map, List.map_cons, List.map_map, List.sum_cons]
    simp only [Function.comp_def, Nat.succ_eq_add_one]
    have shift (b k : Nat) : 2 ^ 8 * (b * 2 ^ (8 * k)) = b * 2 ^ (8 * (k + 1)) := by
      rw [Nat.mul_left_comm, ← Nat.pow_add, Nat.mul_succ 8 k, Nat.add_comm 8]
    rw [leWord_cons_toNat _ (room.trans_le bound), ih _ (by omega), ← List.sum_map_mul_left]
    simp only [shift, Nat.mul_zero, Nat.pow_zero, Nat.mul_one]

/-- The bytes of a number, summed, are the number modulo their range. -/
theorem sum_bytes (v n : Nat) :
    ((List.range n).map fun k => v / 2 ^ (8 * k) % 2 ^ 8 * 2 ^ (8 * k)).sum = v % 2 ^ (8 * n) := by
  induction n with
  | zero => simp [Nat.mod_one]
  | succ n ih =>
    rw [List.range_succ, List.map_append, List.sum_append, ih, List.map_singleton, List.sum_singleton,
      Nat.mul_succ 8 n, Nat.pow_add, Nat.mod_mul, Nat.mul_comm (2 ^ (8 * n))]

/-- A word whose byte k is byte k of the number `v`. -/
theorem leWord_toNat_of_bytes {f : Nat → Byte} {v n : Nat} (short : n ≤ 4)
    (bytes : ∀ k < n, (f k).toNat = v / 2 ^ (8 * k) % 2 ^ 8) :
    (leWord ((List.range n).map f)).toNat = v % 2 ^ (8 * n) := by
  rw [leWord_map_range_toNat n f short, ← sum_bytes v n]
  congr 1
  refine List.map_congr_left fun k hk => ?_
  rw [bytes k (List.mem_range.mp hk)]

theorem leWord_leBytes_toNat (v : Word) {n : Nat} (short : n ≤ 4) :
    (leWord (leBytes v n)).toNat = v.toNat % 2 ^ (8 * n) :=
  leWord_toNat_of_bytes short fun k _ => byteOf_toNat v k

theorem leBytes_getElem? (v : Word) (n k : Nat) : (leBytes v n)[k]? = if k < n then some (byteOf v k) else none := by
  rw [leBytes, List.getElem?_map]
  split
  case isTrue inside => rw [List.getElem?_range inside]; rfl
  case isFalse outside => rw [List.getElem?_eq_none (by simpa using outside)]; rfl

theorem Width.bytes_le_four (w : Width) : w.bytes ≤ 4 := by
  cases w
  case byte => decide
  case half => decide
  case word => decide

/-! ### The dense regions -/

/-- Settles O41: the bytes of the access, put together by `leWord`, are summed by R66's formula. -/
theorem denseReadIsLittleEndian : Obligations.DenseReadIsLittleEndian := by
  intro s a w d dense
  rw [s.memRead_dense dense]
  refine ⟨rfl, fun inside => ?_, fun outside => ?_⟩
  · rw [if_pos inside, Memory.readBytes_eq_map]
    exact leWord_map_range_toNat w.bytes _ w.bytes_le_four
  · rw [if_neg (by omega)]

/-- Settles O42: the bytes read back are the bytes of the value. -/
theorem dramReadAfterWrite : Obligations.DramReadAfterWrite := by
  intro s a v w dram inside
  have same : (s.memWrite a w v).region a = .dense .dram := by
    rw [State.region, State.memWrite_segments]; exact dram
  have stored (k : Nat) (hk : k < w.bytes) :
      (s.memWrite a w v).mem.get (Dense.dram.home + offsetOf a + k) = byteOf v k := by
    rw [s.memWrite_get dram rfl w v inside, if_pos (by omega), Nat.add_sub_cancel_left]
  rw [State.memRead_dense _ same]
  dsimp only
  rw [if_pos (show _ ≤ Dense.dram.size from inside), Memory.readBytes_eq_map]
  exact leWord_toNat_of_bytes w.bytes_le_four fun k hk => by rw [stored k hk, byteOf_toNat]

end Sys2Proof.Machine
end

section
/-! PROOFS. The INTC register file and the peripherals (20_memory.md R69, R79 to R81). -/

namespace Sys2Proof.Machine

/-! ### Reading one byte of the file -/

/-- The 128-bit register file, INT_MASK lowest; INT_ACK, on top, reads 0. -/
def Intc.file (c : Intc) : Nat := c.mask.toNat + 2 ^ 32 * c.prio.toNat + 2 ^ 64 * c.status.toNat

/-- A byte of the lowest register of a file. -/
theorem byte_of_low {k : Nat} (inside : k < 4) (low rest : Nat) :
    (low + 2 ^ 32 * rest) / 2 ^ (8 * k) % 2 ^ 8 = low / 2 ^ (8 * k) % 2 ^ 8 := by
  have split : 2 ^ 32 * rest = 2 ^ (8 * k) * (2 ^ 8 * (2 ^ (24 - 8 * k) * rest)) := by
    rw [← Nat.mul_assoc, ← Nat.mul_assoc, ← Nat.pow_add, ← Nat.pow_add]
    congr 2
    omega
  rw [split, Nat.add_mul_div_left _ _ (Nat.two_pow_pos _), Nat.add_mul_mod_self_left]

/-- A byte of a file above its lowest register. -/
theorem byte_of_rest {k : Nat} (above : 4 ≤ k) {low : Nat} (bound : low < 2 ^ 32) (rest : Nat) :
    (low + 2 ^ 32 * rest) / 2 ^ (8 * k) % 2 ^ 8 = rest / 2 ^ (8 * (k - 4)) % 2 ^ 8 := by
  have split : 2 ^ (8 * k) = 2 ^ 32 * 2 ^ (8 * (k - 4)) := by
    rw [← Nat.pow_add]
    congr 1
    omega
  rw [split, ← Nat.div_div_eq_div_mul, Nat.add_mul_div_left _ _ (Nat.two_pow_pos _), Nat.div_eq_of_lt bound,
    Nat.zero_add]

theorem Intc.file_eq (c : Intc) :
    c.file = c.mask.toNat + 2 ^ 32 * (c.prio.toNat + 2 ^ 32 * (c.status.toNat + 2 ^ 32 * 0)) := by
  unfold Intc.file
  omega

/-- Byte `o` of the file, register by register. -/
theorem Intc.readByte_toNat (c : Intc) {o : Nat} (inside : o < 16) :
    (c.readByte o).toNat = c.file / 2 ^ (8 * o) % 2 ^ 8 := by
  rw [Intc.file_eq]
  by_cases mask : o < 4
  · rw [byte_of_low mask, ← byteOf_toNat, Intc.readByte, if_pos (by simp [inRegister, mask])]
    rfl
  rw [byte_of_rest (by omega) c.mask.isLt]
  by_cases prio : o - 4 < 4
  · rw [byte_of_low prio, ← byteOf_toNat, Intc.readByte, if_neg (by simp [inRegister, mask]),
      if_pos (by simp [inRegister]; omega)]
  rw [byte_of_rest (by omega) c.prio.isLt]
  by_cases status : o - 4 - 4 < 4
  · rw [byte_of_low status, ← byteOf_toNat, Intc.readByte, if_neg (by simp [inRegister, mask]),
      if_neg (by simp [inRegister]; omega), if_pos (by simp [inRegister]; omega)]
    rfl
  rw [byte_of_rest (by omega) c.status.isLt, Intc.readByte, if_neg (by simp [inRegister, mask]),
    if_neg (by simp [inRegister]; omega), if_neg (by simp [inRegister]; omega)]
  simp

theorem inIntc_iff (off : Nat) : inIntc off = true ↔ off < 16 := by simp [inIntc]

theorem State.memRead_intc_file {s : State} {a : Word} (mmio : s.region a = .mmio) {w : Width}
    (inside : offsetOf a + w.bytes ≤ 16) :
    (s.memRead a w).2 = s ∧ (s.memRead a w).1.toNat = s.intc.file / 2 ^ (8 * offsetOf a) % 2 ^ (8 * w.bytes) := by
  have whole : s.memRead a w = (leWord (s.intc.readBytes 0#32 (offsetOf a) w.bytes), s) := by
    simp [State.memRead, mmio, inside]
  rw [whole]
  refine ⟨rfl, leWord_toNat_of_bytes w.bytes_le_four fun k hk => ?_⟩
  have covered : offsetOf a + k < 16 := by omega
  rw [if_pos ((inIntc_iff _).mpr covered), Intc.readByte_toNat _ covered, Nat.mul_add, Nat.pow_add,
    Nat.div_div_eq_div_mul]

/-! ### Writing one byte of the file -/

theorem byteMask_getLsbD (i : Nat) : (0xFF#8).getLsbD i = decide (i < 8) := by
  rw [show 0xFF#8 = BitVec.allOnes 8 from rfl, BitVec.getLsbD_allOnes]

/-- Bit `i` of a byte placed at byte `k` of a word. -/
theorem placedByte_getLsbD (b : Byte) (k : Nat) {i : Nat} (inside : i < 32) :
    (b.setWidth 32 <<< (8 * k)).getLsbD i = (decide (k = i / 8) && b.getLsbD (i % 8)) := by
  rw [BitVec.getLsbD_shiftLeft, BitVec.getLsbD_setWidth]
  by_cases here : k = i / 8
  · have index : i - 8 * k = i % 8 := by omega
    have start : ¬ i < 8 * k := by omega
    have width : i % 8 < 32 := by omega
    subst here
    simp [inside, index, start, width]
  · by_cases start : i < 8 * k
    · simp [here, start]
    · rw [b.getLsbD_of_ge (i - 8 * k) (by omega)]
      simp [here]

theorem withByte_getLsbD (v : Word) (k : Nat) (b : Byte) {i : Nat} (inside : i < 32) :
    (withByte v k b).getLsbD i = if k = i / 8 then b.getLsbD (i % 8) else v.getLsbD i := by
  have index : i % 8 < 8 := Nat.mod_lt _ (by decide)
  rw [withByte, BitVec.getLsbD_or, BitVec.getLsbD_and, BitVec.getLsbD_not, placedByte_getLsbD _ _ inside,
    placedByte_getLsbD _ _ inside, byteMask_getLsbD]
  by_cases here : k = i / 8 <;> simp [here, inside, index]

/-- One byte of a write at any offset of the MMIO segment. -/
def Intc.put (c : Intc) (off : Nat) (b : Byte) : Intc := if inIntc off then c.writeByte off b else c

theorem Intc.writeBytes_cons (c : Intc) (off : Nat) (b : Byte) (bs : List Byte) :
    c.writeBytes off (b :: bs) = (c.put off b).writeBytes (off + 1) bs := rfl

section
variable (c : Intc) {p : Nat} (b : Byte)

theorem Intc.put_mask_byte (h : p < 4) : c.put p b = { c with mask := withByte c.mask p b } := by
  have inside : p < 16 := by omega
  simp [Intc.put, inIntc, Intc.writeByte, inRegister, h, inside]

theorem Intc.put_prio_byte (h : 4 ≤ p ∧ p < 8) : c.put p b = { c with prio := withByte c.prio (p - 4) b } := by
  have inside : p < 16 := by omega
  simp [Intc.put, inIntc, Intc.writeByte, inRegister, h, inside]

theorem Intc.put_ack_byte (h : 12 ≤ p ∧ p < 16) :
    c.put p b = { c with status := c.status &&& ~~~(b.setWidth 32 <<< (8 * (p - 12))) } := by
  have mask : ¬ p < 4 := by omega
  have prio : ¬ p < 8 := by omega
  simp [Intc.put, inIntc, Intc.writeByte, inRegister, h, mask, prio]

theorem Intc.put_other_byte (h : (8 ≤ p ∧ p < 12) ∨ 16 ≤ p) : c.put p b = c := by
  have mask : ¬ p < 4 := by omega
  have prio : ¬ p < 8 := by omega
  have ack : ¬ (12 ≤ p ∧ p < 16) := by omega
  simp only [Intc.put, Intc.writeByte, inRegister, ack, decide_false, mask, prio]
  simp

/-- The four kinds of bytes of the MMIO segment. -/
theorem Intc.byte_cases (p : Nat) :
    p < 4 ∨ (4 ≤ p ∧ p < 8) ∨ (12 ≤ p ∧ p < 16) ∨ (8 ≤ p ∧ p < 12) ∨ 16 ≤ p := by omega

theorem Intc.put_mask_getLsbD {i : Nat} (inside : i < 32) :
    (c.put p b).mask.getLsbD i = if p = i / 8 then b.getLsbD (i % 8) else c.mask.getLsbD i := by
  rcases Intc.byte_cases p with mask | prio | ack | other
  · rw [c.put_mask_byte b mask]; exact withByte_getLsbD _ _ _ inside
  · rw [c.put_prio_byte b prio, if_neg (by omega)]
  · rw [c.put_ack_byte b ack, if_neg (by omega)]
  · rw [c.put_other_byte b other, if_neg (by omega)]

theorem Intc.put_prio_getLsbD {i : Nat} (inside : i < 32) :
    (c.put p b).prio.getLsbD i = if p = 4 + i / 8 then b.getLsbD (i % 8) else c.prio.getLsbD i := by
  rcases Intc.byte_cases p with mask | prio | ack | other
  · rw [c.put_mask_byte b mask, if_neg (by omega)]
  · rw [c.put_prio_byte b prio]
    simp only [withByte_getLsbD _ _ _ inside, show p - 4 = i / 8 ↔ p = 4 + i / 8 by omega]
  · rw [c.put_ack_byte b ack, if_neg (by omega)]
  · rw [c.put_other_byte b other, if_neg (by omega)]

theorem Intc.put_status_getLsbD {i : Nat} (inside : i < 32) :
    (c.put p b).status.getLsbD i =
      if p = 12 + i / 8 then c.status.getLsbD i && !b.getLsbD (i % 8) else c.status.getLsbD i := by
  rcases Intc.byte_cases p with mask | prio | ack | other
  · rw [c.put_mask_byte b mask, if_neg (by omega)]
  · rw [c.put_prio_byte b prio, if_neg (by omega)]
  · rw [c.put_ack_byte b ack]
    simp only [BitVec.getLsbD_and, BitVec.getLsbD_not, placedByte_getLsbD _ _ inside, inside, decide_true,
      Bool.true_and, show p - 12 = i / 8 ↔ p = 12 + i / 8 by omega]
    split <;> simp [*]
  · rw [c.put_other_byte b other, if_neg (by omega)]

theorem Intc.put_frame : (c.put p b).cpuConnected = c.cpuConnected ∧ (c.put p b).blocked = c.blocked := by
  rcases Intc.byte_cases p with mask | prio | ack | other
  · rw [c.put_mask_byte b mask]; exact ⟨rfl, rfl⟩
  · rw [c.put_prio_byte b prio]; exact ⟨rfl, rfl⟩
  · rw [c.put_ack_byte b ack]; exact ⟨rfl, rfl⟩
  · rw [c.put_other_byte b other]; exact ⟨rfl, rfl⟩

end

/-! ### Writing the bytes of a word -/

/-- What holds of the INTC after bytes are written, where one byte, at offset `o`, reaches the piece `piece` of it. -/
theorem Intc.writeBytes_piece {α : Type} (piece : Intc → α) (o : Nat) (new : Byte → α → α)
    (put : ∀ (c : Intc) (p : Nat) (b : Byte), piece (c.put p b) = if p = o then new b (piece c) else piece c)
    (bs : List Byte) : ∀ (c : Intc) (off : Nat), piece (c.writeBytes off bs) =
      if off ≤ o then (bs[o - off]?.map fun b => new b (piece c)).getD (piece c) else piece c := by
  induction bs with
  | nil => intro c off; simp [Intc.writeBytes]
  | cons b bs ih =>
    intro c off
    rw [Intc.writeBytes_cons, ih, put]
    rcases Nat.lt_trichotomy off o with before | rfl | after
    · obtain ⟨j, hj⟩ : ∃ j, o = off + 1 + j := ⟨o - (off + 1), by omega⟩
      have index : o - off = j + 1 := by omega
      have rest : o - (off + 1) = j := by omega
      rw [if_pos (by omega), if_pos before.le, if_neg before.ne, index, rest, List.getElem?_cons_succ]
    · simp
    · rw [if_neg (by omega), if_neg (by omega), if_neg (by omega)]

/-- The same for the `n` low bytes of a word. -/
theorem Intc.writeBytes_leBytes_piece {α : Type} (piece : Intc → α) (o : Nat) (new : Byte → α → α)
    (put : ∀ (c : Intc) (p : Nat) (b : Byte), piece (c.put p b) = if p = o then new b (piece c) else piece c)
    (c : Intc) (off n : Nat) (v : Word) : piece (c.writeBytes off (leBytes v n)) =
      if off ≤ o ∧ o < off + n then new (byteOf v (o - off)) (piece c) else piece c := by
  rw [Intc.writeBytes_piece piece o new put, leBytes_getElem?]
  by_cases start : off ≤ o
  · by_cases stop : o < off + n
    · rw [if_pos start, if_pos (by omega), if_pos ⟨start, stop⟩]; rfl
    · rw [if_pos start, if_neg (by omega), if_neg fun h => stop h.2]; rfl
  · rw [if_neg start, if_neg fun h => start h.1]

/-- Bit `i % 8` of the byte that reaches byte `i / 8` of the register at offset `reg`. -/
theorem coveringByte_getLsbD (v : Word) {reg off i : Nat} (start : off ≤ reg + i / 8) :
    (byteOf v (reg + i / 8 - off)).getLsbD (i % 8) = v.getLsbD (8 * reg + i - 8 * off) := by
  rw [byteOf_getLsbD, decide_eq_true (Nat.mod_lt _ (by decide)), Bool.true_and]
  congr 1
  omega

theorem intcStored_writeBytes (c : Intc) (off n : Nat) (v : Word) :
    IntcStored c (c.writeBytes off (leBytes v n)) off n v where
  mask i inside := by
    rw [Intc.writeBytes_leBytes_piece (·.mask.getLsbD i) (i / 8) (fun b _ => b.getLsbD (i % 8))
      fun c _ b => c.put_mask_getLsbD b inside]
    refine if_ctx_congr Iff.rfl (fun covered => ?_) fun _ => rfl
    simpa using coveringByte_getLsbD v (reg := 0) (by simpa using covered.1)
  prio i inside := by
    rw [Intc.writeBytes_leBytes_piece (·.prio.getLsbD i) (4 + i / 8) (fun b _ => b.getLsbD (i % 8))
      fun c _ b => c.put_prio_getLsbD b inside]
    exact if_ctx_congr Iff.rfl (fun covered => coveringByte_getLsbD v covered.1) fun _ => rfl
  status i inside := by
    rw [Intc.writeBytes_leBytes_piece (·.status.getLsbD i) (12 + i / 8) (fun b old => old && !b.getLsbD (i % 8))
      fun c _ b => c.put_status_getLsbD b inside]
    by_cases covered : off ≤ 12 + i / 8 ∧ 12 + i / 8 < off + n
    · rw [if_pos covered, decide_eq_true covered, Bool.true_and, coveringByte_getLsbD v covered.1]
    · simp [covered]
  cpuConnected := by
    simpa using Intc.writeBytes_leBytes_piece (·.cpuConnected) 0 (fun _ old => old)
      (fun c _ b => by simpa using (c.put_frame b).1) c off n v
  blocked := by
    simpa using Intc.writeBytes_leBytes_piece (·.blocked) 0 (fun _ old => old)
      (fun c _ b => by simpa using (c.put_frame b).2) c off n v

theorem State.memWrite_mmio {s : State} {a : Word} (mmio : s.region a = .mmio) (w : Width) (v : Word) :
    s.memWrite a w v = { s with intc := s.intc.writeBytes (offsetOf a) (leBytes v w.bytes) } := by
  simp [State.memWrite, mmio]

/-! ### Outside the INTC -/

theorem Intc.writeBytes_outside (bs : List Byte) : ∀ (c : Intc) (off : Nat), 16 ≤ off → c.writeBytes off bs = c := by
  induction bs with
  | nil => intro c off _; rfl
  | cons b bs ih =>
    intro c off outside
    rw [Intc.writeBytes_cons, c.put_other_byte b (.inr outside)]
    exact ih c (off + 1) (by omega)

theorem State.draw_toNat (s : State) (w : Width) :
    (s.draw w.bytes).toNat = (Config.peripheralDraw s.draws).toNat % 2 ^ (8 * w.bytes) :=
  leWord_leBytes_toNat _ w.bytes_le_four

theorem State.memRead_cdrom {s : State} {a : Word} (cdrom : s.region a = .cdrom) (w : Width) :
    s.memRead a w = (s.draw w.bytes, { s with draws := s.draws + 1 }) := by
  simp [State.memRead, cdrom]

theorem State.memRead_mmio_outside {s : State} {a : Word} (mmio : s.region a = .mmio) (outside : 16 ≤ offsetOf a)
    (w : Width) : s.memRead a w = (s.draw w.bytes, { s with draws := s.draws + 1 }) := by
  have bytes : s.intc.readBytes (Config.peripheralDraw s.draws) (offsetOf a) w.bytes =
      leBytes (Config.peripheralDraw s.draws) w.bytes := by
    refine List.map_congr_left fun k _ => if_neg ?_
    rw [inIntc_iff]
    omega
  have positive : 0 < w.bytes := by cases w <;> decide
  have past : ¬ offsetOf a + w.bytes ≤ 16 := by omega
  simp [State.memRead, mmio, past, bytes, State.draw]

end Sys2Proof.Machine
end

section
/-! PROOFS. The statements of 20_memory.md on the INTC register file and the peripherals. -/

namespace Sys2Proof.Machine

/-- Settles O44: both regions answer the next draw, and a write that begins past the file reaches no register. -/
theorem peripheralReadIsFree : Obligations.PeripheralReadIsFree := by
  intro s a v w region
  have read : s.memRead a w = (s.draw w.bytes, { s with draws := s.draws + 1 }) := by
    rcases region with cdrom | ⟨mmio, outside⟩
    · exact State.memRead_cdrom cdrom w
    · exact State.memRead_mmio_outside mmio outside w
  have write : s.memWrite a w v = s := by
    rcases region with cdrom | ⟨mmio, outside⟩
    · simp [State.memWrite, cdrom]
    · rw [State.memWrite_mmio mmio, Intc.writeBytes_outside _ _ _ outside]
  rw [read]
  refine ⟨s.draw_toNat w, ?_, rfl, write⟩
  rw [s.draw_toNat w]
  exact Nat.mod_lt _ (Nat.two_pow_pos _)

/-- Settles O45: reads are cut from the 128-bit file, and a write goes to it byte by byte. -/
theorem intcRegisterFile : Obligations.IntcRegisterFile := by
  intro s a v w mmio file t
  have mask := s.intc.mask.isLt
  have prio := s.intc.prio.isLt
  have status := s.intc.status.isLt
  have word {value : Word} (inside : offsetOf a + 4 ≤ 16)
      (cut : file / 2 ^ (8 * offsetOf a) % 2 ^ 32 = value.toNat) : s.memRead a .word = (value, s) := by
    obtain ⟨state, read⟩ := State.memRead_intc_file mmio (w := .word) inside
    exact Prod.ext (BitVec.eq_of_toNat_eq (read.trans cut)) state
  refine ⟨fun off => word (by omega) ?_, fun off => word (by omega) ?_, fun off => word (by omega) ?_,
    fun off => word (by omega) ?_, State.memRead_intc_file mmio, ?_, ?_⟩
  · rw [off]; omega
  · rw [off]; omega
  · rw [off]; omega
  · rw [off]
    have none : (0#32).toNat = 0 := rfl
    omega
  · simpa only [t, State.memWrite_mmio mmio] using intcStored_writeBytes s.intc (offsetOf a) w.bytes v
  · simp only [t, State.memWrite_mmio mmio]

end Sys2Proof.Machine
end

section
/-! PROOFS. Stores (44_rix_memory_form.md R260 to R263, 45_compressed.md, 20_memory.md R67 to R70, R80, R81). -/

namespace Sys2Proof.Machine

variable {s t : State} {a b : Word}

/-! ### The addresses of an access -/

/-- An access that stays inside its segment does not carry into the segment number. -/
theorem address_of_byte {k : Nat} (inside : offsetOf a + k < 2 ^ 24) :
    segmentOf (a + BitVec.ofNat 32 k) = segmentOf a ∧ offsetOf (a + BitVec.ofNat 32 k) = offsetOf a + k := by
  rw [offsetOf_eq_mod] at inside
  have bound : a.toNat < 2 ^ 32 := a.isLt
  have sum : (a + BitVec.ofNat 32 k).toNat = a.toNat + k := by
    rw [BitVec.toNat_add, BitVec.toNat_ofNat]
    omega
  simp only [segmentOf_eq_div, offsetOf_eq_mod, sum]
  omega

/-! ### The bytes after a write -/

theorem State.region_memWrite (w : Width) (v : Word) : (s.memWrite a w v).region b = s.region b := by
  rw [State.region, State.memWrite_segments]; rfl

theorem State.peekByte_dense {d : Dense} (dense : s.region b = .dense d) :
    s.peekByte b = some (if offsetOf b < d.size then s.mem.get (d.home + offsetOf b) else 0#8) := by
  simp only [State.peekByte, dense]

theorem Dense.eq_dram_of_guestWritable {d : Dense} (writable : d.guestWritable = true) : d = .dram := by
  cases d
  case dram => rfl
  case flash => exact absurd writable (by decide)

/-- A write in DRAM, in bounds, seen from any address of DRAM. -/
theorem State.peekByte_memWrite_dram {w : Width} (v : Word) (dram : s.region a = .dense .dram)
    (inside : offsetOf a + w.bytes ≤ Dense.dram.size) (at_b : s.region b = .dense .dram) :
    (s.memWrite a w v).peekByte b =
      if offsetOf a ≤ offsetOf b ∧ offsetOf b < offsetOf a + w.bytes then some (byteOf v (offsetOf b - offsetOf a))
      else s.peekByte b := by
  have at_b' : (s.memWrite a w v).region b = .dense .dram := (State.region_memWrite w v).trans at_b
  rw [State.peekByte_dense at_b', State.peekByte_dense at_b, s.memWrite_get dram rfl w v inside]
  by_cases covered : offsetOf a ≤ offsetOf b ∧ offsetOf b < offsetOf a + w.bytes
  · rw [if_pos covered, if_pos (by omega), if_pos (by omega), Nat.add_sub_add_left]
  · rw [if_neg covered, if_neg (c := Dense.dram.home + offsetOf a ≤ _ ∧ _) (by omega)]

/-- A write keeps FLASH, seen from any address of it. -/
theorem State.peekByte_memWrite_flash (w : Width) (v : Word) (at_b : s.region b = .dense .flash) :
    (s.memWrite a w v).peekByte b = s.peekByte b := by
  have at_b' : (s.memWrite a w v).region b = .dense .flash := (State.region_memWrite w v).trans at_b
  rw [State.peekByte_dense at_b', State.peekByte_dense at_b]
  congr 1
  exact if_ctx_congr Iff.rfl (s.memWrite_flash a w v) fun _ => rfl

/-- A byte that a write does not cover, outside the MMIO segment. -/
theorem State.peekByte_memWrite_outside (w : Width) (v : Word) (apart : ¬ Covers s a w.bytes b)
    (at_b : s.region b ≠ .mmio) : (s.memWrite a w v).peekByte b = s.peekByte b := by
  have region_b := State.region_memWrite (s := s) (a := a) (b := b) w v
  cases region : s.region b
  case dense d =>
    cases d
    case flash => exact State.peekByte_memWrite_flash w v region
    case dram =>
      rcases s.memWrite_cases a w v with unchanged | ⟨d, dense, writable, inside, _⟩ | ⟨_, intc⟩
      · rw [unchanged]
      · cases Dense.eq_dram_of_guestWritable writable
        rw [State.peekByte_memWrite_dram v dense inside region, if_neg]
        exact fun covered => apart ⟨region.trans dense.symm, covered⟩
      · rw [State.peekByte_dense (region_b.trans region), State.peekByte_dense region, intc]
  case mmio => exact absurd region at_b
  case cdrom => simp only [State.peekByte, region_b, region]
  case sink => simp only [State.peekByte, region_b, region]

/-! ### A write is a store of its low bytes -/

theorem stored_memWrite (s : State) (ea : Word) (w : Width) (d : Word) :
    Stored s (s.memWrite ea w d) ea w.bytes d where
  inside dram fits k hk := by
    have size : offsetOf ea + w.bytes ≤ 2 ^ 24 := fits
    obtain ⟨segment, offset⟩ := address_of_byte (a := ea) (k := k) (by omega)
    have same : s.region (ea + BitVec.ofNat 32 k) = .dense .dram := by rw [State.region, segment]; exact dram
    rw [State.peekByte_memWrite_dram d dram fits same, offset, if_pos (by omega), Nat.add_sub_cancel_left]
    rfl
  out_of_bounds dram past := by
    have beyond : ¬ offsetOf ea + w.bytes ≤ Dense.dram.size := Nat.not_le.mpr past
    have unchanged : s.memWrite ea w d = s := by simp [State.memWrite, dram, beyond]
    rw [unchanged]
    exact .of_eq rfl rfl rfl
  dropped region := by
    have unchanged : s.memWrite ea w d = s := by
      rcases region with flash | sink | cdrom
      · simp [State.memWrite, flash, Dense.guestWritable]
      · exact State.memWrite_sink sink w d
      · simp [State.memWrite, cdrom]
    rw [unchanged]
    exact .of_eq rfl rfl rfl
  intc elsewhere := by
    rcases s.memWrite_cases ea w d with unchanged | ⟨_, _, _, _, dense⟩ | ⟨mmio, _⟩
    · rw [unchanged]
    · rw [dense]
    · exact absurd mmio elsewhere
  mmio mmio := by
    rw [State.memWrite_mmio mmio]
    exact ⟨rfl, intcStored_writeBytes s.intc (offsetOf ea) w.bytes d⟩
  outside b apart at_b := State.peekByte_memWrite_outside w d apart at_b

/-- Only memory, the INTC and the segment table count for what a store did. -/
theorem Stored.congr {u : State} {ea d : Word} {n : Nat} (h : Stored s t ea n d) (mem : u.mem = t.mem)
    (intc : u.intc = t.intc) (segments : u.segments = t.segments) : Stored s u ea n d := by
  have peek := State.peekByte_congr mem intc segments
  obtain ⟨inside, past, dropped, kept, mmio, outside⟩ := h
  have same (h : SameMemory s t) : SameMemory s u :=
    ⟨mem.trans h.mem, intc.trans h.intc, fun b => (peek b).trans (h.bytes b)⟩
  exact
    { inside := fun dram fits k hk => (peek _).trans (inside dram fits k hk)
      out_of_bounds := fun dram beyond => same (past dram beyond)
      dropped := fun region => same (dropped region)
      intc := fun elsewhere => intc.trans (kept elsewhere)
      mmio := fun region => ⟨mem.trans (mmio region).1, intc ▸ (mmio region).2⟩
      outside := fun b apart at_b => (peek b).trans (outside b apart at_b) }

/-! ### The effects -/

theorem storeEffect_store (s : State) (op : StoreOp) (ea d delta : Word) :
    StoreEffect (.next ((s.store op ea d).advance delta)) s ea op.width.bytes d delta := by
  have edits := ((Edits.refl (p := {}) (s := s)).store op ea d).advance delta
  refine ⟨_, rfl, fun q => ?_, ?_, ?_, edits.sameSr rfl, edits.sameCr rfl, edits.sameCe rfl, edits.sameRun, ?_, ?_⟩
  · rw [State.getReg_advance, State.store_eq, State.getReg_memWrite]
  · simp [State.store_eq]
  · simp [State.store_eq]
  · simp [State.store_eq]
  · exact (stored_memWrite s ea op.width d).congr rfl rfl rfl

/-- The store first, then the base update. -/
theorem storeBaseEffect_store_setReg (s : State) (op : StoreOp) (ra : Reg) (base ea d delta : Word) :
    StoreBaseEffect (.next (((s.store op ea d).setReg ra base).advance delta)) s ra base ea op.width.bytes d delta := by
  have edits := (((Edits.refl (p := {}) (s := s)).store op ea d).setReg ra base).advance delta
  refine ⟨_, rfl, fun q => ?_, ?_, ?_, edits.sameSr rfl, edits.sameCr rfl, edits.sameCe rfl, edits.sameRun, ?_, ?_⟩
  · rw [State.getReg_advance, State.getReg_setReg, State.store_eq, State.getReg_memWrite]
  · simp [State.store_eq]
  · simp [State.store_eq]
  · simp [State.store_eq]
  · exact (stored_memWrite s ea op.width d).congr (by simp [State.store_eq]) (by simp [State.store_eq])
      (by simp [State.store_eq])

end Sys2Proof.Machine
end

section
/-! PROOFS. The statements of 44_rix_memory_form.md and 45_compressed.md on stores. -/

namespace Sys2Proof.Machine

/-- Settles O37: each is `store` at the base plus its offset. -/
theorem baseOffsetStores : Obligations.BaseOffsetStores := by
  intro rd ra imm12 imm15 s e f d
  refine ⟨?_, ?_, ?_, ?_, ?_, ?_⟩
  · rw [exec_swRix]; exact storeEffect_store s .sw e d 4
  · rw [exec_shRix]; exact storeEffect_store s .sh e d 4
  · rw [exec_sbRix]; exact storeEffect_store s .sb e d 4
  · rw [exec_sw]; exact storeEffect_store s .sw f d 4
  · rw [exec_sh]; exact storeEffect_store s .sh f d 4
  · rw [exec_sb]; exact storeEffect_store s .sb f d 4

/-- Settles O38: each is `store` at a register's address, or r2 plus the scaled immediate. -/
theorem registerIndirectStores : Obligations.RegisterIndirectStores := by
  intro rd ra imm7 s e d
  refine ⟨?_, ?_, ?_, ?_, ?_, ?_⟩
  · rw [exec_scb]; exact storeEffect_store s .sb e d 4
  · rw [exec_scw]; exact storeEffect_store s .sw e d 4
  · rw [exec_swC]; exact storeEffect_store s .sw e d 2
  · rw [exec_shC]; exact storeEffect_store s .sh e d 2
  · rw [exec_sbC]; exact storeEffect_store s .sb e d 2
  · rw [exec_swpC, spOffset_eq]; exact storeEffect_store s .sw _ d 2

/-- Settles O39: each stores the old rD and then updates its base. -/
theorem baseUpdatingStores : Obligations.BaseUpdatingStores := by
  intro rd ra imm12 s e d
  refine ⟨?_, ?_, ?_, ?_⟩
  · rw [exec_swPi]; exact storeBaseEffect_store_setReg s .sw ra (e + signedWord imm12) e d 4
  · rw [exec_shPi]; exact storeBaseEffect_store_setReg s .sh ra (e + signedWord imm12) e d 4
  · rw [exec_sbPi]; exact storeBaseEffect_store_setReg s .sb ra (e + signedWord imm12) e d 4
  · rw [exec_pushC]; exact storeBaseEffect_store_setReg s .sw ra (e - 4#32) (e - 4#32) d 2

end Sys2Proof.Machine
end
